-- ==== Sys2Proof/Word.lean ====
section
/-! DEFINITION. The widths of the block's buses and fields, and the encoded form of an operation. -/

namespace Sys2Proof

/-- One input byte `b[i]` (00_scope R10). -/
abbrev Byte := BitVec 8

/-- The word on the input port in_data (10_state R21, 30_encoding R73). -/
abbrev DataIn := BitVec 128

/-- The word on the output port out_data (10_state R21, 30_encoding R74). -/
abbrev DataOut := BitVec 176

/-- A window index `idx[j]` (00_scope R10, 30_encoding R79). -/
abbrev Index := BitVec 6

/-- A character code `ch[j]` (00_scope R10, 41_alphabet_lut R149). -/
abbrev CharCode := BitVec 8

/-- The 22 window indices, lane 0 first (40_window_extract R122). -/
abbrev Indices := Vector Index 22

/-- The 22 character codes, character 0 first (42_stream_ops R160). -/
abbrev Chars := Vector CharCode 22

/-- The three formats of 30_encoding: CTRL (R70), LANE (R75), INDEX (R79). -/
inductive Format where
  | ctrl
  | lane
  | index
  deriving DecidableEq, Repr

/-- An operation in its encoded form: the bits of its format and, for CTRL, the operand on in_data.
`unknown` is a table word that is too wide for each of the formats. -/
inductive Code where
  /-- The control vector c = {rst, in_valid, out_ready} with in_data beside it (30_encoding R70). -/
  | ctrl (c : BitVec 3) (inData : DataIn)
  /-- A lane selector (30_encoding R75). -/
  | lane (sel : BitVec 5)
  /-- The operand of the alphabet lookup (30_encoding R79). -/
  | index (i : Index)
  /-- `w`, said to have `nbits` bits, is a word of no format. -/
  | unknown (nbits w : Nat)
  deriving DecidableEq, Repr

end Sys2Proof
end

