-- ==== Sys2Proof/Config.lean ====
section
/-! DEFINITION. What the spec fixes for the block, and the values it leaves unspecified, as constants with no body. -/

namespace Sys2Proof

/-- CAPACITY: transactions in flight at most (00_scope R6). -/
def Config.capacity : Nat := 2

/-- LATENCY: cycles from the acceptance cycle to the first offer without back-pressure (00_scope R6). -/
def Config.latency : Nat := 2

/-- out_data in a cycle with out_valid = 0: any value (10_state R39, 60_exceptions R201(e)). Log entry 4. -/
opaque Config.freeOutData : Nat → DataOut

/-- What an in_data that is not clean reads as where no transfer samples it (93_implementation_defined U4). Log entry 10. -/
opaque Config.freeInData : Nat → DataIn

/-- s1_valid at power-on: unspecified (10_state R40). Log entry 7. -/
opaque Config.powerOnS1Valid : Nat → Bool

/-- s2_valid at power-on: unspecified (10_state R40). Log entry 7. -/
opaque Config.powerOnS2Valid : Nat → Bool

/-- s1_idx at power-on: unspecified (10_state R40). Log entry 7. -/
opaque Config.powerOnS1Idx : Nat → Indices

/-- s2_char at power-on: unspecified (10_state R40). Log entry 7. -/
opaque Config.powerOnS2Char : Nat → Chars

end Sys2Proof
end

