-- ==== Sys2Proof/Syntax.lean ====
section
/-! DEFINITION. The operations of spec/opcode_table.json, one constructor per row. -/

namespace Sys2Proof

/-- The 28 operations: five per-cycle operations (CTRL), 22 window lanes (LANE) and the alphabet lookup (INDEX). -/
inductive Instr where
  /-- RESET: a cycle with rst = 1 (42_stream_ops R164). -/
  | reset
  /-- IDLE: nothing offered, nothing taken (42_stream_ops R165). -/
  | idle
  /-- PUSH h: h is offered (42_stream_ops R166). -/
  | push (h : DataIn)
  /-- POP: the host takes what is offered (42_stream_ops R167). -/
  | pop
  /-- PUSHPOP h: h is offered and the host takes what is offered (42_stream_ops R168). -/
  | pushpop (h : DataIn)
  /-- LANE0: window index 0 (40_window_extract R100). -/
  | lane0
  /-- LANE1: window index 1 (40_window_extract R101). -/
  | lane1
  /-- LANE2: window index 2 (40_window_extract R102). -/
  | lane2
  /-- LANE3: window index 3 (40_window_extract R103). -/
  | lane3
  /-- LANE4: window index 4 (40_window_extract R104). -/
  | lane4
  /-- LANE5: window index 5 (40_window_extract R105). -/
  | lane5
  /-- LANE6: window index 6 (40_window_extract R106). -/
  | lane6
  /-- LANE7: window index 7 (40_window_extract R107). -/
  | lane7
  /-- LANE8: window index 8 (40_window_extract R108). -/
  | lane8
  /-- LANE9: window index 9 (40_window_extract R109). -/
  | lane9
  /-- LANE10: window index 10 (40_window_extract R110). -/
  | lane10
  /-- LANE11: window index 11 (40_window_extract R111). -/
  | lane11
  /-- LANE12: window index 12 (40_window_extract R112). -/
  | lane12
  /-- LANE13: window index 13 (40_window_extract R113). -/
  | lane13
  /-- LANE14: window index 14 (40_window_extract R114). -/
  | lane14
  /-- LANE15: window index 15 (40_window_extract R115). -/
  | lane15
  /-- LANE16: window index 16 (40_window_extract R116). -/
  | lane16
  /-- LANE17: window index 17 (40_window_extract R117). -/
  | lane17
  /-- LANE18: window index 18 (40_window_extract R118). -/
  | lane18
  /-- LANE19: window index 19 (40_window_extract R119). -/
  | lane19
  /-- LANE20: window index 20 (40_window_extract R120). -/
  | lane20
  /-- LANE21: window index 21 (40_window_extract R121). -/
  | lane21
  /-- LUT: the alphabet lookup at index i (41_alphabet_lut R140). -/
  | lut (i : Index)
  deriving DecidableEq, Repr

end Sys2Proof
end

