-- ==== Sys2Proof/WellFormed.lean ====
section
/-! DEFINITION. Which encoded operations and which operations are well formed. -/

namespace Sys2Proof

/-- Well-formedness of an encoded operation: every control vector (30_encoding R72) and every index (R79) is one,
a lane selector is one up to 21 (R75, R76), and a word of no format is none. -/
def Code.wellFormed : Code → Bool
  | .ctrl _ _ => true
  | .lane sel => decide (sel.toNat ≤ 21)
  | .index _ => true
  | .unknown _ _ => false

/-- Well-formedness of an operation. Its operands are bit vectors of exactly the widths of the spec and every value of
them is legal (30_encoding R73 for in_data, R79 for an index), so no term of `Instr` is ill formed. -/
def Instr.wellFormed : Instr → Bool
  | .reset => true
  | .idle => true
  | .push _ => true
  | .pop => true
  | .pushpop _ => true
  | .lane0 => true
  | .lane1 => true
  | .lane2 => true
  | .lane3 => true
  | .lane4 => true
  | .lane5 => true
  | .lane6 => true
  | .lane7 => true
  | .lane8 => true
  | .lane9 => true
  | .lane10 => true
  | .lane11 => true
  | .lane12 => true
  | .lane13 => true
  | .lane14 => true
  | .lane15 => true
  | .lane16 => true
  | .lane17 => true
  | .lane18 => true
  | .lane19 => true
  | .lane20 => true
  | .lane21 => true
  | .lut _ => true

end Sys2Proof
end

