-- ==== Sys2Proof/Decode.lean ====
section
/-! DEFINITION. Decoding of the three formats, the encoder, the opcode table as data, and the reading of a bare table word. -/

namespace Sys2Proof

/-- Why a code is no operation. -/
inductive Reject where
  /-- A LANE selector 22 to 31: no such lane exists (30_encoding R76). -/
  | noSuchLane (sel : BitVec 5)
  /-- The word belongs to none of the three formats. -/
  | noFormat (nbits w : Nat)
  deriving DecidableEq, Repr

/-- The operation a control vector selects (30_encoding R71): with rst = 1 the other inputs are ignored, and in_data is an
operand only when c[2:1] = 0b01 (R70). -/
def decodeCtrl (c : BitVec 3) (inData : DataIn) : Instr :=
  match c.getLsbD 2, c.getLsbD 1, c.getLsbD 0 with
  | true, _, _ => .reset
  | false, false, false => .idle
  | false, true, false => .push inData
  | false, false, true => .pop
  | false, true, true => .pushpop inData

/-- The lane a selector names (30_encoding R75, R78), or a refusal (R76). -/
def decodeLane (sel : BitVec 5) : Except Reject Instr :=
  match sel.toNat with
  | 0 => .ok .lane0
  | 1 => .ok .lane1
  | 2 => .ok .lane2
  | 3 => .ok .lane3
  | 4 => .ok .lane4
  | 5 => .ok .lane5
  | 6 => .ok .lane6
  | 7 => .ok .lane7
  | 8 => .ok .lane8
  | 9 => .ok .lane9
  | 10 => .ok .lane10
  | 11 => .ok .lane11
  | 12 => .ok .lane12
  | 13 => .ok .lane13
  | 14 => .ok .lane14
  | 15 => .ok .lane15
  | 16 => .ok .lane16
  | 17 => .ok .lane17
  | 18 => .ok .lane18
  | 19 => .ok .lane19
  | 20 => .ok .lane20
  | 21 => .ok .lane21
  | _ => .error (.noSuchLane sel)

/-- Decoding of an encoded operation: total, and a rejection has a name. -/
def decode : Code → Except Reject Instr
  | .ctrl c inData => .ok (decodeCtrl c inData)
  | .lane sel => decodeLane sel
  | .index i => .ok (.lut i)
  | .unknown nbits w => .error (.noFormat nbits w)

/-- The encoded form of an operation. RESET is encoded as its stimulus line drives it, 0b100 with in_data = 0, and an
operation without a word drives in_data as 0 (30_encoding R81). -/
def encode : Instr → Code
  | .reset => .ctrl 0b100 0
  | .idle => .ctrl 0b000 0
  | .push h => .ctrl 0b010 h
  | .pop => .ctrl 0b001 0
  | .pushpop h => .ctrl 0b011 h
  | .lane0 => .lane 0
  | .lane1 => .lane 1
  | .lane2 => .lane 2
  | .lane3 => .lane 3
  | .lane4 => .lane 4
  | .lane5 => .lane 5
  | .lane6 => .lane 6
  | .lane7 => .lane 7
  | .lane8 => .lane 8
  | .lane9 => .lane 9
  | .lane10 => .lane 10
  | .lane11 => .lane 11
  | .lane12 => .lane 12
  | .lane13 => .lane 13
  | .lane14 => .lane 14
  | .lane15 => .lane 15
  | .lane16 => .lane 16
  | .lane17 => .lane 17
  | .lane18 => .lane 18
  | .lane19 => .lane 19
  | .lane20 => .lane 20
  | .lane21 => .lane 21
  | .lut i => .index i

/-- The bits of an encoded operation, in the numbering of spec/opcode_table.json, and its format. -/
def Code.bits : Code → Option (Format × Nat)
  | .ctrl c _ => some (.ctrl, c.toNat)
  | .lane sel => some (.lane, sel.toNat)
  | .index i => some (.index, i.toNat)
  | .unknown _ _ => none

/-- One row of spec/opcode_table.json. -/
structure OpRow where
  mnemonic : String
  format : Format
  bits : Nat
  mask : Nat
  deriving DecidableEq, Repr

/-- The CTRL rows (30_encoding R71). -/
def ctrlRows : List OpRow :=
  [⟨"RESET", .ctrl, 0b100, 0b100⟩,
   ⟨"IDLE", .ctrl, 0b000, 0b111⟩,
   ⟨"PUSH", .ctrl, 0b010, 0b111⟩,
   ⟨"POP", .ctrl, 0b001, 0b111⟩,
   ⟨"PUSHPOP", .ctrl, 0b011, 0b111⟩]

/-- The rows of lanes 0 to 10 (30_encoding R78). -/
def laneRowsLow : List OpRow :=
  [⟨"LANE0", .lane, 0, 31⟩,
   ⟨"LANE1", .lane, 1, 31⟩,
   ⟨"LANE2", .lane, 2, 31⟩,
   ⟨"LANE3", .lane, 3, 31⟩,
   ⟨"LANE4", .lane, 4, 31⟩,
   ⟨"LANE5", .lane, 5, 31⟩,
   ⟨"LANE6", .lane, 6, 31⟩,
   ⟨"LANE7", .lane, 7, 31⟩,
   ⟨"LANE8", .lane, 8, 31⟩,
   ⟨"LANE9", .lane, 9, 31⟩,
   ⟨"LANE10", .lane, 10, 31⟩]

/-- The rows of lanes 11 to 21 (30_encoding R78). -/
def laneRowsHigh : List OpRow :=
  [⟨"LANE11", .lane, 11, 31⟩,
   ⟨"LANE12", .lane, 12, 31⟩,
   ⟨"LANE13", .lane, 13, 31⟩,
   ⟨"LANE14", .lane, 14, 31⟩,
   ⟨"LANE15", .lane, 15, 31⟩,
   ⟨"LANE16", .lane, 16, 31⟩,
   ⟨"LANE17", .lane, 17, 31⟩,
   ⟨"LANE18", .lane, 18, 31⟩,
   ⟨"LANE19", .lane, 19, 31⟩,
   ⟨"LANE20", .lane, 20, 31⟩,
   ⟨"LANE21", .lane, 21, 31⟩]

/-- The INDEX row (30_encoding R79): match 0 and mask 0. -/
def indexRows : List OpRow := [⟨"LUT", .index, 0, 0⟩]

/-- The whole of spec/opcode_table.json. -/
def opcodeTable : List OpRow := ctrlRows ++ laneRowsLow ++ laneRowsHigh ++ indexRows

/-- A row takes a code of its own format whose bits under the row's mask are the row's match. -/
def OpRow.takes (r : OpRow) (w : Code) : Bool :=
  match w.bits with
  | some (f, n) => decide (f = r.format) && (n &&& r.mask == r.bits)
  | none => false

/-- The mnemonic of an operation, as the table spells it. -/
def Instr.mnemonic : Instr → String
  | .reset => "RESET"
  | .idle => "IDLE"
  | .push _ => "PUSH"
  | .pop => "POP"
  | .pushpop _ => "PUSHPOP"
  | .lane0 => "LANE0"
  | .lane1 => "LANE1"
  | .lane2 => "LANE2"
  | .lane3 => "LANE3"
  | .lane4 => "LANE4"
  | .lane5 => "LANE5"
  | .lane6 => "LANE6"
  | .lane7 => "LANE7"
  | .lane8 => "LANE8"
  | .lane9 => "LANE9"
  | .lane10 => "LANE10"
  | .lane11 => "LANE11"
  | .lane12 => "LANE12"
  | .lane13 => "LANE13"
  | .lane14 => "LANE14"
  | .lane15 => "LANE15"
  | .lane16 => "LANE16"
  | .lane17 => "LANE17"
  | .lane18 => "LANE18"
  | .lane19 => "LANE19"
  | .lane20 => "LANE20"
  | .lane21 => "LANE21"
  | .lut _ => "LUT"

/-- The code a bare word of the table stands for. The table's three formats overlap (IDLE, LANE0 and the lookup of index 0
are all the number 0), and only a word's width in bits tells them apart: 3 bits are a control vector, 5 a lane selector, 6 an
index. DESIGN CHOICE (log entry 11): a word of any other width (a row's bits rounded up to whole bytes) is read as the first row
of the table whose match word it equals (so 0 to 4 are the five control vectors, 5 to 21 lanes), else as an index if it has
6 bits. A control word's in_data is 0, as the words above `nbits` are. -/
def tableCode (nbits w : Nat) : Code :=
  match nbits with
  | 3 => if w < 8 then .ctrl (BitVec.ofNat 3 w) 0 else .unknown 3 w
  | 5 => if w < 32 then .lane (BitVec.ofNat 5 w) else .unknown 5 w
  | 6 => if w < 64 then .index (BitVec.ofNat 6 w) else .unknown 6 w
  | n =>
    if w < 5 then .ctrl (BitVec.ofNat 3 w) 0
    else if w < 22 then .lane (BitVec.ofNat 5 w)
    else if w < 64 then .index (BitVec.ofNat 6 w)
    else .unknown n w

/-- The operation the decoder reads from a bare word of the table. -/
def decodeTableWord (nbits w : Nat) : Option Instr :=
  match decode (tableCode nbits w) with
  | .ok i => some i
  | .error _ => none

end Sys2Proof
end

