-- ==== Sys2Proof/Machine/State.lean ====
section
/-! DEFINITION. The state of the machine, its outcomes, the state after reset and the state at power-on. -/

namespace Sys2Proof.Machine

/-- A level on an input pin at the sampling edge: a clean 0, a clean 1, or neither (X, Z, metastable: 30_encoding R72). -/
inductive Level where
  | low
  | high
  | unclean
  deriving DecidableEq, Repr

/-- How the host drives out_ready (70_reset_and_hazards R240): at a level of its own (from registers), or as a combinational
copy of in_valid, of out_valid, or of in_ready. The last closes a combinational loop. -/
inductive ReadyDrive where
  | level (l : Level)
  | followInValid
  | followOutValid
  | followInReady
  deriving DecidableEq, Repr

/-- How the host drives the input ports in one cycle (10_state R21, 42_stream_ops R185). `inData = none` is a word of which at
least one bit is not a clean 0 or 1. -/
structure Drive where
  rst : Level
  inValid : Level
  outReady : ReadyDrive
  inData : Option DataIn
  deriving DecidableEq, Repr

/-- What the host, or the platform around it, does next. -/
inductive Stimulus where
  /-- One clock cycle with the input ports so driven (00_scope R11). -/
  | cycle (d : Drive)
  /-- One encoded operation by itself: a LANE or INDEX word settles its net, a CTRL word is a cycle (log entry 5). -/
  | evaluate (w : Code)
  /-- PUSHW h: PUSH h up to and including the first cycle with in_ready = 1 (30_encoding R84). -/
  | pushw (h : DataIn)
  /-- DRAIN: POP up to and including the second of two consecutive cycles with out_valid = 0 (30_encoding R84).
  `seenEmpty` says that the cycle before, of this same DRAIN, had out_valid = 0. -/
  | drain (seenEmpty : Bool)
  /-- ENCODE h: PUSH h, IDLE, POP, from the drained state (30_encoding R84). -/
  | encode (h : DataIn)
  /-- The platform holds clk: no edge occurs (60_exceptions R217). -/
  | clockStopped
  /-- The platform removes and restores power (60_exceptions R217, 70_reset_and_hazards R232). -/
  | powerLoss
  deriving DecidableEq, Repr

/-- The registers of the block, all 310 bits of them (10_state R25). -/
structure Regs where
  s1Valid : Bool
  s1Idx : Indices
  s2Valid : Bool
  s2Char : Chars
  deriving DecidableEq, Repr

/-- The levels on the input ports in the latest cycle (10_state R21). -/
structure Ports where
  rst : Bool
  inValid : Bool
  outReady : Bool
  inData : DataIn
  deriving DecidableEq, Repr

/-- The combinational nets that the LANE and LUT operations settle (00_scope R10, 40_window_extract R100 to R121,
41_alphabet_lut R140), as far as they have been evaluated in the present cycle: `none` is a net with no value. They are no
register: the edge that ends a cycle leaves every one of them with no value, so they carry nothing from one cycle to the next
(10_state R25). DESIGN CHOICE: log entry 5. -/
structure Nets where
  /-- idx[j], the outputs of the window extractor. -/
  idx : Vector (Option Index) 22
  /-- ch[j], the outputs of the 22 lookup multiplexers; with no value while s1_valid = 0 (10_state R41). -/
  ch : Vector (Option CharCode) 22
  /-- The result of the latest single lookup LUT(i) of the cycle. -/
  lutOut : Option CharCode
  deriving DecidableEq, Repr

/-- One output transfer as the host observes it (42_stream_ops R175): its cycle number and its out_data. -/
structure Transfer where
  cycle : Nat
  outData : DataOut
  deriving DecidableEq, Repr

/-- The state of the model: the block's registers, its input ports and nets, and the host beside it. -/
structure State where
  /-- The block's whole register state (10_state R25). -/
  regs : Regs
  /-- The input ports (10_state R21). -/
  ports : Ports
  /-- The combinational nets (00_scope R10). -/
  nets : Nets
  /-- The model's own: a RESET cycle has happened since power-on (60_exceptions R201(b)). -/
  initialised : Bool
  /-- The model's own: the number of the next clock cycle of the run (00_scope R11). -/
  cycle : Nat
  /-- The model's own: the counter by which free values are drawn. -/
  draws : Nat
  /-- The host: what it does next, first item first (10_state R20(b)). -/
  script : List Stimulus
  /-- The host's count of input transfers since the last reset, oldest first (20_memory R58, 70_reset_and_hazards R231). -/
  accepted : List DataIn
  /-- The host's count of output transfers since the last reset, oldest first (20_memory R58). -/
  delivered : List DataOut
  /-- The observation of the run: all its output transfers, oldest first (42_stream_ops R175). -/
  observation : List Transfer
  deriving DecidableEq, Repr

/-- The block raises no exception, trap or interrupt and has no error output (60_exceptions R200, R202, R205; 10_state R21), so
there is no fault: nobody raises one, and nothing is lost by having none. -/
inductive Fault where
  deriving DecidableEq, Repr

/-- Why the reader of stimulus scripts refuses a line (30_encoding R83). -/
inductive ScriptError where
  /-- The first word of the line is no mnemonic of 30_encoding R80. -/
  | unknownMnemonic
  /-- The operand is not 32 hexadecimal digits. -/
  | badHex
  /-- RESET, IDLE, POP or DRAIN has an operand. -/
  | unexpectedOperand
  /-- PUSH, PUSHPOP, PUSHW or ENCODE has none. -/
  | missingOperand
  deriving DecidableEq, Repr

/-- The outcomes that belong to the model's boundary and not to the block (60_exceptions R201). Each is safe: nothing is claimed
of what the hardware does from there. -/
inductive Refusal where
  /-- An operation with no meaning yet; raised by no operation of this model. Safe. -/
  | notModelled (mnemonic : String)
  /-- A cycle in which rst, in_valid or out_ready is not a clean 0 or 1 (R201(a)); raised by the sampling of the pins. Safe. -/
  | uncleanControl
  /-- An input transfer in which in_data is not clean (R201(a)); raised by the sampling of the pins. Safe. -/
  | uncleanInData
  /-- A cycle other than RESET before the first reset after power-on (R201(b)); raised by `clockCycle`. Safe. -/
  | runWithoutReset
  /-- out_ready is a combinational function of in_ready (R201(c)); raised by the sampling of the pins. Safe. -/
  | combinationalLoop
  /-- A code that is no operation: a LANE selector 22 to 31 (R201(d)) or a word of no format; raised by the fetch. Safe. -/
  | undecodable (r : Reject)
  /-- A stimulus script that breaks 30_encoding R83 (R201(d)); raised by the script reader. Safe. -/
  | badScript (e : ScriptError)
  /-- ENCODE from a state that is not drained, for which 30_encoding R84 defines nothing; raised by the host. Safe. -/
  | encodeNotDrained
  deriving DecidableEq, Repr

/-- The registers right after a reset: the valid bits are 0 (10_state R40). The data registers are unspecified there; DESIGN
CHOICE: 0 in every lane (log entry 1). -/
def Regs.reset : Regs :=
  { s1Valid := false, s1Idx := Vector.replicate 22 0, s2Valid := false, s2Char := Vector.replicate 22 0 }

/-- The input ports right after a reset: rst is released and nothing is offered or taken. The same levels stand at
power-on. DESIGN CHOICE: log entry 2. -/
def Ports.reset : Ports := { rst := false, inValid := false, outReady := false, inData := 0 }

/-- The nets of a cycle in which none of them has been evaluated: no value in any (log entry 5). -/
def Nets.unsettled : Nets := { idx := Vector.replicate 22 none, ch := Vector.replicate 22 none, lutOut := none }

/-- The machine right after the reset cycle that every run begins with (10_state R40, 70_reset_and_hazards R233). That cycle was
cycle 0 of the run (95_test_vectors section 6), so the next is cycle 1. -/
def State.reset : State :=
  { regs := Regs.reset, ports := Ports.reset, nets := Nets.unsettled, initialised := true, cycle := 1, draws := 0,
    script := [], accepted := [], delivered := [], observation := [] }

/-- The registers at power-on: unspecified (10_state R40, 70_reset_and_hazards R232), drawn by `n`. -/
def Regs.powerOn (n : Nat) : Regs :=
  { s1Valid := Config.powerOnS1Valid n, s1Idx := Config.powerOnS1Idx n,
    s2Valid := Config.powerOnS2Valid n, s2Char := Config.powerOnS2Char n }

/-- The machine at power-on, before its first reset: cycle 0 of a run has yet to happen (70_reset_and_hazards R232). The registers
are free values. The spec does not say what the host drives on the input pins at power-on; DESIGN CHOICE: rst, in_valid, out_ready
and in_data are 0, as in `Ports.reset` (log entry 2). The host's lists are empty and no net has a value, as in `State.reset`
(log entries 5, 6 and 8). -/
def State.powerOn : State :=
  { State.reset with regs := Regs.powerOn 0, initialised := false, cycle := 0, draws := 1 }

end Sys2Proof.Machine
end

