-- ==== Sys2Proof/Machine/Flags.lean ====
section
/-! DEFINITION. The handshake signals. The block has no flags (10_state R32): these are combinational functions of the
registers and of the input ports of the same cycle (00_scope R11). -/

namespace Sys2Proof.Machine

/-- in_ready (10_state R37). -/
def inReady (s : State) : Bool := !s.ports.rst && (!s.regs.s1Valid || !s.regs.s2Valid || s.ports.outReady)

/-- out_valid (10_state R38). -/
def outValid (s : State) : Bool := !s.ports.rst && s.regs.s2Valid

/-- An input transfer happens at the end of this cycle (42_stream_ops R163). -/
def inFire (s : State) : Bool := s.ports.inValid && inReady s

/-- An output transfer happens at the end of this cycle (42_stream_ops R163). -/
def outFire (s : State) : Bool := outValid s && s.ports.outReady

/-- S1's transaction advances into S2 at the end of this cycle (42_stream_ops R162, R163). -/
def advances (s : State) : Bool := !s.ports.rst && (s.regs.s1Valid && (!s.regs.s2Valid || s.ports.outReady))

/-- The occupancy, 0 to 2 (10_state R36). -/
def occupancy (s : State) : Nat := s.regs.s1Valid.toNat + s.regs.s2Valid.toNat

/-- The block is drained (42_stream_ops R175). -/
def drained (s : State) : Bool := !s.regs.s1Valid && !s.regs.s2Valid

/-- The 22 characters on the out_data bus: ch[0] in the low byte, ch[21] in the high byte (10_state R24, R39). -/
def packChars (v : Chars) : DataOut :=
  v[21] ++ v[20] ++ v[19] ++ v[18] ++ v[17] ++ v[16] ++ v[15] ++ v[14] ++ v[13] ++ v[12] ++ v[11] ++
  v[10] ++ v[9] ++ v[8] ++ v[7] ++ v[6] ++ v[5] ++ v[4] ++ v[3] ++ v[2] ++ v[1] ++ v[0]

/-- Character field j of an out_data word: out_data[8j+7:8j] (30_encoding R74). -/
def outChar (w : DataOut) (j : Nat) : CharCode := w.extractLsb' (8 * j) 8

/-- out_data (10_state R39): s2_char while out_valid = 1, any value otherwise (log entry 4). -/
def outData (s : State) : DataOut :=
  if outValid s then packChars s.regs.s2Char else Config.freeOutData s.draws

end Sys2Proof.Machine
end

