-- ==== Sys2Proof/Machine/Operands.lean ====
section
/-! DEFINITION. The operands: the bytes of in_data, the five window shapes, the 22 lanes, and the alphabet. -/

namespace Sys2Proof.Machine

/-- One entry per lane 0 to 21, all at once (00_scope R12). -/
def eachLane {α : Type} (f : Fin 22 → α) : Vector α 22 :=
  #v[f 0, f 1, f 2, f 3, f 4, f 5, f 6, f 7, f 8, f 9, f 10,
     f 11, f 12, f 13, f 14, f 15, f 16, f 17, f 18, f 19, f 20, f 21]

/-- Input byte `b[i] = in_data[8i+7:8i]` (10_state R22). -/
def inByte (d : DataIn) (i : Nat) : Byte := d.extractLsb' (8 * i) 8

/-- Window shape W_A: x[7:2] (30_encoding R77). -/
def windowA (x : Byte) : Index := x.extractLsb' 2 6

/-- Window shape W_B: x[1:0], then y[7:4] (30_encoding R77). -/
def windowB (x y : Byte) : Index := x.extractLsb' 0 2 ++ y.extractLsb' 4 4

/-- Window shape W_C: y[3:0], then z[7:6] (30_encoding R77). -/
def windowC (y z : Byte) : Index := y.extractLsb' 0 4 ++ z.extractLsb' 6 2

/-- Window shape W_D: z[5:0] (30_encoding R77). -/
def windowD (z : Byte) : Index := z.extractLsb' 0 6

/-- Window shape W_T: x[1:0], then four constant zeros (30_encoding R77). -/
def windowT (x : Byte) : Index := x.extractLsb' 0 2 ++ 0#4

/-- idx[0] (40_window_extract R100). -/
def lane0 (d : DataIn) : Index := windowA (inByte d 0)

/-- idx[1] (40_window_extract R101). -/
def lane1 (d : DataIn) : Index := windowB (inByte d 0) (inByte d 1)

/-- idx[2] (40_window_extract R102). -/
def lane2 (d : DataIn) : Index := windowC (inByte d 1) (inByte d 2)

/-- idx[3] (40_window_extract R103). -/
def lane3 (d : DataIn) : Index := windowD (inByte d 2)

/-- idx[4] (40_window_extract R104). -/
def lane4 (d : DataIn) : Index := windowA (inByte d 3)

/-- idx[5] (40_window_extract R105). -/
def lane5 (d : DataIn) : Index := windowB (inByte d 3) (inByte d 4)

/-- idx[6] (40_window_extract R106). -/
def lane6 (d : DataIn) : Index := windowC (inByte d 4) (inByte d 5)

/-- idx[7] (40_window_extract R107). -/
def lane7 (d : DataIn) : Index := windowD (inByte d 5)

/-- idx[8] (40_window_extract R108). -/
def lane8 (d : DataIn) : Index := windowA (inByte d 6)

/-- idx[9] (40_window_extract R109). -/
def lane9 (d : DataIn) : Index := windowB (inByte d 6) (inByte d 7)

/-- idx[10] (40_window_extract R110). -/
def lane10 (d : DataIn) : Index := windowC (inByte d 7) (inByte d 8)

/-- idx[11] (40_window_extract R111). -/
def lane11 (d : DataIn) : Index := windowD (inByte d 8)

/-- idx[12] (40_window_extract R112). -/
def lane12 (d : DataIn) : Index := windowA (inByte d 9)

/-- idx[13] (40_window_extract R113). -/
def lane13 (d : DataIn) : Index := windowB (inByte d 9) (inByte d 10)

/-- idx[14] (40_window_extract R114). -/
def lane14 (d : DataIn) : Index := windowC (inByte d 10) (inByte d 11)

/-- idx[15] (40_window_extract R115). -/
def lane15 (d : DataIn) : Index := windowD (inByte d 11)

/-- idx[16] (40_window_extract R116). -/
def lane16 (d : DataIn) : Index := windowA (inByte d 12)

/-- idx[17] (40_window_extract R117). -/
def lane17 (d : DataIn) : Index := windowB (inByte d 12) (inByte d 13)

/-- idx[18] (40_window_extract R118). -/
def lane18 (d : DataIn) : Index := windowC (inByte d 13) (inByte d 14)

/-- idx[19] (40_window_extract R119). -/
def lane19 (d : DataIn) : Index := windowD (inByte d 14)

/-- idx[20] (40_window_extract R120). -/
def lane20 (d : DataIn) : Index := windowA (inByte d 15)

/-- idx[21] (40_window_extract R121). -/
def lane21 (d : DataIn) : Index := windowT (inByte d 15)

/-- WIN: the vector of the 22 lane results (40_window_extract R122). -/
def win (d : DataIn) : Indices :=
  #v[lane0 d, lane1 d, lane2 d, lane3 d,
     lane4 d, lane5 d, lane6 d, lane7 d,
     lane8 d, lane9 d, lane10 d, lane11 d,
     lane12 d, lane13 d, lane14 d, lane15 d,
     lane16 d, lane17 d, lane18 d, lane19 d,
     lane20 d, lane21 d]

/-- ALPHA at 0 to 25: `A` to `Z` (41_alphabet_lut R141). -/
def alphaUpper : Vector CharCode 26 :=
  #v[0x41, 0x42, 0x43, 0x44, 0x45, 0x46, 0x47, 0x48, 0x49, 0x4A, 0x4B, 0x4C, 0x4D,
     0x4E, 0x4F, 0x50, 0x51, 0x52, 0x53, 0x54, 0x55, 0x56, 0x57, 0x58, 0x59, 0x5A]

/-- ALPHA at 26 to 51: `a` to `z` (41_alphabet_lut R141). -/
def alphaLower : Vector CharCode 26 :=
  #v[0x61, 0x62, 0x63, 0x64, 0x65, 0x66, 0x67, 0x68, 0x69, 0x6A, 0x6B, 0x6C, 0x6D,
     0x6E, 0x6F, 0x70, 0x71, 0x72, 0x73, 0x74, 0x75, 0x76, 0x77, 0x78, 0x79, 0x7A]

/-- ALPHA at 52 to 61: `0` to `9` (41_alphabet_lut R141). -/
def alphaDigits : Vector CharCode 10 :=
  #v[0x30, 0x31, 0x32, 0x33, 0x34, 0x35, 0x36, 0x37, 0x38, 0x39]

/-- ALPHA at 62 and 63: `_` and `-` (41_alphabet_lut R143, R144). -/
def alphaUrl : Vector CharCode 2 :=
  #v[0x5F, 0x2D]

/-- The alphabet table ALPHA (41_alphabet_lut R141). -/
def alpha : Vector CharCode 64 := alphaUpper ++ alphaLower ++ alphaDigits ++ alphaUrl

/-- LUT: the alphabet lookup (41_alphabet_lut R140). -/
def lut (i : Index) : CharCode := alpha[i.toNat]'i.isLt

/-- LUT on every lane at once: 22 independent copies (41_alphabet_lut R140, R148). -/
def lutAll (v : Indices) : Chars := eachLane fun j => lut v[j]

/-- ENC, the encode function (42_stream_ops R160). -/
def enc (d : DataIn) : Chars := lutAll (win d)

end Sys2Proof.Machine
end

