-- ==== Sys2Proof/Machine/Ops.lean ====
section
/-! DEFINITION. The named operations over the ports, the nets, the registers and the host's counts, and one clock cycle made of
them. There is no memory to operate on (20_memory R50) and no exception to take or to return from (60_exceptions R200, R205,
R206): the nearest thing to one, a reset, is the `rst = 1` arm of `nextRegs`. -/

namespace Sys2Proof.Machine

/-- The host drives the input ports (10_state R20(b), R21). -/
def State.drive (s : State) (p : Ports) : State := { s with ports := p }

/-- The window extractor settles the net of one lane (40_window_extract R100 to R121). -/
def State.settleLane (s : State) (j : Fin 22) (v : Index) : State :=
  { s with nets := { s.nets with idx := s.nets.idx.set j (some v) } }

/-- The character nets after one lookup: LUT(i) is ch[j] in each lane j whose operand s1_idx[j] is i (41_alphabet_lut R140).
While s1_valid = 0 no lane has an operand, because s1_idx is not read then (10_state R41). -/
def lookupCh (i : Index) (r : Regs) (ch : Vector (Option CharCode) 22) : Vector (Option CharCode) 22 :=
  eachLane fun j => if r.s1Valid = true ∧ r.s1Idx[j] = i then some (lut i) else ch[j]

/-- One lookup of the alphabet (41_alphabet_lut R140): LUT(i) is its result, and it drives the lanes whose operand it is. -/
def State.settleLookup (s : State) (i : Index) : State :=
  { s with nets := { s.nets with lutOut := some (lut i), ch := lookupCh i s.regs s.nets.ch } }

/-- The registers after the rising edge (42_stream_ops R162): on an input transfer S1 loads WIN(in_data), all 22 lanes at once
(10_state R26, 40_window_extract R126), and on an advance S2 loads LUT of every s1_idx[j] (10_state R27, 41_alphabet_lut R148). -/
def nextRegs (s : State) : Regs :=
  if s.ports.rst then { s.regs with s1Valid := false, s2Valid := false }
  else
    { s1Valid := inFire s || (s.regs.s1Valid && !advances s)
      s1Idx := if inFire s then win s.ports.inData else s.regs.s1Idx
      s2Valid := advances s || (s.regs.s2Valid && !s.ports.outReady)
      s2Char := if advances s then lutAll s.regs.s1Idx else s.regs.s2Char }

/-- The input transfers since the last reset, after this cycle (20_memory R58, 70_reset_and_hazards R231). -/
def nextAccepted (s : State) : List DataIn :=
  if s.ports.rst then [] else if inFire s then s.accepted ++ [s.ports.inData] else s.accepted

/-- The output transfers since the last reset, after this cycle (20_memory R58). -/
def nextDelivered (s : State) : List DataOut :=
  if s.ports.rst then [] else if outFire s then s.delivered ++ [outData s] else s.delivered

/-- The observation of the run after this cycle (42_stream_ops R175). -/
def nextObservation (s : State) : List Transfer :=
  if outFire s then s.observation ++ [⟨s.cycle, outData s⟩] else s.observation

/-- The rising edge that ends the cycle: every register takes its next value at once (00_scope R11), no net keeps a value into
the next cycle (10_state R25), and the host notes what was transferred. -/
def State.edge (s : State) : State :=
  { s with
    regs := nextRegs s
    nets := Nets.unsettled
    initialised := s.initialised || s.ports.rst
    cycle := s.cycle + 1
    draws := s.draws + 1
    accepted := nextAccepted s
    delivered := nextDelivered s
    observation := nextObservation s }

/-- One clock cycle on the ports as they are driven, ended by its edge. Before the first reset after power-on every
cycle but RESET is refused (60_exceptions R201(b)). -/
def clockCycle (s : State) : Host.Outcome State Fault Refusal :=
  if s.initialised || s.ports.rst then .next s.edge else .refused .runWithoutReset

/-- The platform takes the power away and gives it back: no register survives (60_exceptions R217). -/
def State.losePower (s : State) : State :=
  { s with regs := Regs.powerOn s.draws, nets := Nets.unsettled, initialised := false, draws := s.draws + 1 }

end Sys2Proof.Machine
end

