-- ==== Sys2Proof/Machine/Ctrl.lean ====
section
/-! DEFINITION. The five per-cycle operations of the CTRL format: each drives the control pins it stands for and runs one clock
cycle, since all five are special cases of one step function (30_encoding R71, 42_stream_ops R162). An operation leaves the pins
it does not determine as the host has driven them. -/

namespace Sys2Proof.Machine

/-- RESET (42_stream_ops R164): rst = 1; the other inputs are ignored. -/
def execReset (s : State) : Host.Outcome State Fault Refusal :=
  clockCycle (s.drive { s.ports with rst := true })

/-- IDLE (42_stream_ops R165): c = 000; in_data is not sampled. -/
def execIdle (s : State) : Host.Outcome State Fault Refusal :=
  clockCycle (s.drive { s.ports with rst := false, inValid := false, outReady := false })

/-- PUSH h (42_stream_ops R166): c = 010 with h on in_data. -/
def execPush (h : DataIn) (s : State) : Host.Outcome State Fault Refusal :=
  clockCycle (s.drive { rst := false, inValid := true, outReady := false, inData := h })

/-- POP (42_stream_ops R167): c = 001; in_data is not sampled. -/
def execPop (s : State) : Host.Outcome State Fault Refusal :=
  clockCycle (s.drive { s.ports with rst := false, inValid := false, outReady := true })

/-- PUSHPOP h (42_stream_ops R168): c = 011 with h on in_data. -/
def execPushpop (h : DataIn) (s : State) : Host.Outcome State Fault Refusal :=
  clockCycle (s.drive { rst := false, inValid := true, outReady := true, inData := h })

end Sys2Proof.Machine
end

