-- ==== Sys2Proof/Machine/Lane.lean ====
section
/-! DEFINITION. The 22 lanes of the window extractor, each by itself: lane j settles the net idx[j] from in_data. A lane reads
no register and writes none; what registers its result is stage S1, in a clock cycle (40_window_extract, preamble). -/

namespace Sys2Proof.Machine

/-- LANE0 (40_window_extract R100). -/
def execLane0 (s : State) : Host.Outcome State Fault Refusal := .next (s.settleLane 0 (lane0 s.ports.inData))

/-- LANE1 (40_window_extract R101). -/
def execLane1 (s : State) : Host.Outcome State Fault Refusal := .next (s.settleLane 1 (lane1 s.ports.inData))

/-- LANE2 (40_window_extract R102). -/
def execLane2 (s : State) : Host.Outcome State Fault Refusal := .next (s.settleLane 2 (lane2 s.ports.inData))

/-- LANE3 (40_window_extract R103). -/
def execLane3 (s : State) : Host.Outcome State Fault Refusal := .next (s.settleLane 3 (lane3 s.ports.inData))

/-- LANE4 (40_window_extract R104). -/
def execLane4 (s : State) : Host.Outcome State Fault Refusal := .next (s.settleLane 4 (lane4 s.ports.inData))

/-- LANE5 (40_window_extract R105). -/
def execLane5 (s : State) : Host.Outcome State Fault Refusal := .next (s.settleLane 5 (lane5 s.ports.inData))

/-- LANE6 (40_window_extract R106). -/
def execLane6 (s : State) : Host.Outcome State Fault Refusal := .next (s.settleLane 6 (lane6 s.ports.inData))

/-- LANE7 (40_window_extract R107). -/
def execLane7 (s : State) : Host.Outcome State Fault Refusal := .next (s.settleLane 7 (lane7 s.ports.inData))

/-- LANE8 (40_window_extract R108). -/
def execLane8 (s : State) : Host.Outcome State Fault Refusal := .next (s.settleLane 8 (lane8 s.ports.inData))

/-- LANE9 (40_window_extract R109). -/
def execLane9 (s : State) : Host.Outcome State Fault Refusal := .next (s.settleLane 9 (lane9 s.ports.inData))

/-- LANE10 (40_window_extract R110). -/
def execLane10 (s : State) : Host.Outcome State Fault Refusal := .next (s.settleLane 10 (lane10 s.ports.inData))

/-- LANE11 (40_window_extract R111). -/
def execLane11 (s : State) : Host.Outcome State Fault Refusal := .next (s.settleLane 11 (lane11 s.ports.inData))

/-- LANE12 (40_window_extract R112). -/
def execLane12 (s : State) : Host.Outcome State Fault Refusal := .next (s.settleLane 12 (lane12 s.ports.inData))

/-- LANE13 (40_window_extract R113). -/
def execLane13 (s : State) : Host.Outcome State Fault Refusal := .next (s.settleLane 13 (lane13 s.ports.inData))

/-- LANE14 (40_window_extract R114). -/
def execLane14 (s : State) : Host.Outcome State Fault Refusal := .next (s.settleLane 14 (lane14 s.ports.inData))

/-- LANE15 (40_window_extract R115). -/
def execLane15 (s : State) : Host.Outcome State Fault Refusal := .next (s.settleLane 15 (lane15 s.ports.inData))

/-- LANE16 (40_window_extract R116). -/
def execLane16 (s : State) : Host.Outcome State Fault Refusal := .next (s.settleLane 16 (lane16 s.ports.inData))

/-- LANE17 (40_window_extract R117). -/
def execLane17 (s : State) : Host.Outcome State Fault Refusal := .next (s.settleLane 17 (lane17 s.ports.inData))

/-- LANE18 (40_window_extract R118). -/
def execLane18 (s : State) : Host.Outcome State Fault Refusal := .next (s.settleLane 18 (lane18 s.ports.inData))

/-- LANE19 (40_window_extract R119). -/
def execLane19 (s : State) : Host.Outcome State Fault Refusal := .next (s.settleLane 19 (lane19 s.ports.inData))

/-- LANE20 (40_window_extract R120). -/
def execLane20 (s : State) : Host.Outcome State Fault Refusal := .next (s.settleLane 20 (lane20 s.ports.inData))

/-- LANE21 (40_window_extract R121). -/
def execLane21 (s : State) : Host.Outcome State Fault Refusal := .next (s.settleLane 21 (lane21 s.ports.inData))

end Sys2Proof.Machine
end

