-- ==== Sys2Proof/Machine/Lut.lean ====
section
/-! DEFINITION. The alphabet lookup by itself. -/

namespace Sys2Proof.Machine

/-- LUT i (41_alphabet_lut R140): the lookup yields LUT(i), and drives ch[j] in each lane j whose operand s1_idx[j] is i
(none while s1_valid = 0, 10_state R41). -/
def execLut (i : Index) (s : State) : Host.Outcome State Fault Refusal := .next (s.settleLookup i)

end Sys2Proof.Machine
end

