-- ==== Sys2Proof/Machine/Dispatch.lean ====
section
/-! DEFINITION. What each operation does: one arm per constructor, each a call of its meaning. -/

namespace Sys2Proof.Machine

def exec (i : Instr) (s : State) : Host.Outcome State Fault Refusal :=
  match i with
  | .reset => Sys2Proof.Machine.execReset s
  | .idle => Sys2Proof.Machine.execIdle s
  | .push h => Sys2Proof.Machine.execPush h s
  | .pop => Sys2Proof.Machine.execPop s
  | .pushpop h => Sys2Proof.Machine.execPushpop h s
  | .lane0 => Sys2Proof.Machine.execLane0 s
  | .lane1 => Sys2Proof.Machine.execLane1 s
  | .lane2 => Sys2Proof.Machine.execLane2 s
  | .lane3 => Sys2Proof.Machine.execLane3 s
  | .lane4 => Sys2Proof.Machine.execLane4 s
  | .lane5 => Sys2Proof.Machine.execLane5 s
  | .lane6 => Sys2Proof.Machine.execLane6 s
  | .lane7 => Sys2Proof.Machine.execLane7 s
  | .lane8 => Sys2Proof.Machine.execLane8 s
  | .lane9 => Sys2Proof.Machine.execLane9 s
  | .lane10 => Sys2Proof.Machine.execLane10 s
  | .lane11 => Sys2Proof.Machine.execLane11 s
  | .lane12 => Sys2Proof.Machine.execLane12 s
  | .lane13 => Sys2Proof.Machine.execLane13 s
  | .lane14 => Sys2Proof.Machine.execLane14 s
  | .lane15 => Sys2Proof.Machine.execLane15 s
  | .lane16 => Sys2Proof.Machine.execLane16 s
  | .lane17 => Sys2Proof.Machine.execLane17 s
  | .lane18 => Sys2Proof.Machine.execLane18 s
  | .lane19 => Sys2Proof.Machine.execLane19 s
  | .lane20 => Sys2Proof.Machine.execLane20 s
  | .lane21 => Sys2Proof.Machine.execLane21 s
  | .lut idx => Sys2Proof.Machine.execLut idx s

end Sys2Proof.Machine
end

