-- ==== Sys2Proof/Machine/Script.lean ====
section
/-! DEFINITION. The reader of stimulus scripts (30_encoding R80 to R84). A line is a list of characters; a script is a list of
lines, and a refused script does not run (R83). -/

namespace Sys2Proof.Machine

/-- The pins of an operation line (30_encoding R81): clean levels, in_data = 0 on a line without a word. -/
def Drive.ofPins (rst inValid outReady : Bool) (inData : DataIn) : Drive :=
  { rst := if rst then .high else .low
    inValid := if inValid then .high else .low
    outReady := .level (if outReady then .high else .low)
    inData := some inData }

/-- The line RESET (30_encoding R81). -/
def lineReset : Drive := .ofPins true false false 0

/-- The line IDLE (30_encoding R81). -/
def lineIdle : Drive := .ofPins false false false 0

/-- The line POP (30_encoding R81). -/
def linePop : Drive := .ofPins false false true 0

/-- The line PUSH h (30_encoding R81). -/
def linePush (h : DataIn) : Drive := .ofPins false true false h

/-- The line PUSHPOP h (30_encoding R81). -/
def linePushpop (h : DataIn) : Drive := .ofPins false true true h

/-- The value of one hexadecimal digit (30_encoding R80: 0-9, A-F, a-f). -/
def hexDigit (c : Char) : Option (BitVec 4) :=
  if 48 ≤ c.toNat ∧ c.toNat ≤ 57 then some (BitVec.ofNat 4 (c.toNat - 48))
  else if 65 ≤ c.toNat ∧ c.toNat ≤ 70 then some (BitVec.ofNat 4 (c.toNat - 55))
  else if 97 ≤ c.toNat ∧ c.toNat ≤ 102 then some (BitVec.ofNat 4 (c.toNat - 87))
  else none

/-- The bytes of a hex literal: digits 2i and 2i+1 are b[i], high nibble first (30_encoding R82). -/
def hexBytes : List Char → Option (List Byte)
  | [] => some []
  | [_] => none
  | hi :: lo :: rest =>
    match hexDigit hi, hexDigit lo, hexBytes rest with
    | some h, some l, some bs => some ((h ++ l) :: bs)
    | _, _, _ => none

/-- The in_data word of 16 bytes, b[0] in the low byte (30_encoding R73). -/
def busWord : List Byte → Nat
  | [] => 0
  | b :: bs => b.toNat + 256 * busWord bs

/-- A hex32 (30_encoding R80, R82): exactly 32 hexadecimal digits. -/
def readHex32 (cs : List Char) : Except ScriptError DataIn :=
  if cs.length = 32 then
    match hexBytes cs with
    | some bs => .ok (BitVec.ofNat 128 (busWord bs))
    | none => .error .badHex
  else .error .badHex

/-- A line up to its comment: a `;` starts a comment that runs to the end of the line (30_encoding R80). -/
def beforeComment : List Char → List Char
  | [] => []
  | c :: cs => if c = ';' then [] else c :: beforeComment cs

/-- A blank between the words of a line. -/
def isBlank (c : Char) : Bool := c = ' ' || c = '\t' || c = '\r'

/-- The words of a line, in order. -/
def wordsOf : List Char → List (List Char)
  | [] => []
  | c :: cs =>
    if isBlank c then wordsOf cs
    else
      match cs, wordsOf cs with
      | [], _ => [[c]]
      | d :: _, ws =>
        if isBlank d then [c] :: ws
        else
          match ws with
          | [] => [[c]]
          | w :: rest => (c :: w) :: rest

/-- A line that takes no operand. -/
def plainLine (args : List (List Char)) (i : Stimulus) : Except ScriptError (Option Stimulus) :=
  match args with
  | [] => .ok (some i)
  | _ :: _ => .error .unexpectedOperand

/-- A line that takes one word. More than one operand is no hex32 (log entry 9). -/
def wordLine (args : List (List Char)) (f : DataIn → Stimulus) : Except ScriptError (Option Stimulus) :=
  match args with
  | [] => .error .missingOperand
  | [h] =>
    match readHex32 h with
    | .ok d => .ok (some (f d))
    | .error e => .error e
  | _ :: _ :: _ => .error .badHex

/-- One line of a script (30_encoding R80, R81): `none` is a line with no operation, which takes no cycle. -/
def readLine (line : List Char) : Except ScriptError (Option Stimulus) :=
  match wordsOf (beforeComment line) with
  | [] => .ok none
  | op :: args =>
    if op = ['R', 'E', 'S', 'E', 'T'] then plainLine args (.cycle lineReset)
    else if op = ['I', 'D', 'L', 'E'] then plainLine args (.cycle lineIdle)
    else if op = ['P', 'O', 'P'] then plainLine args (.cycle linePop)
    else if op = ['P', 'U', 'S', 'H'] then wordLine args fun h => .cycle (linePush h)
    else if op = ['P', 'U', 'S', 'H', 'P', 'O', 'P'] then wordLine args fun h => .cycle (linePushpop h)
    else if op = ['P', 'U', 'S', 'H', 'W'] then wordLine args .pushw
    else if op = ['D', 'R', 'A', 'I', 'N'] then plainLine args (.drain false)
    else if op = ['E', 'N', 'C', 'O', 'D', 'E'] then wordLine args .encode
    else .error .unknownMnemonic

/-- A whole script: the first line that is refused refuses the script (30_encoding R83). -/
def readScript : List (List Char) → Except ScriptError (List Stimulus)
  | [] => .ok []
  | line :: rest =>
    match readLine line with
    | .error e => .error e
    | .ok none => readScript rest
    | .ok (some i) =>
      match readScript rest with
      | .error e => .error e
      | .ok is => .ok (i :: is)

/-- The host takes up a script, which replaces what it was going to do; a refused script does not run (30_encoding R83). -/
def loadScript (lines : List (List Char)) (s : State) : Host.Outcome State Fault Refusal :=
  match readScript lines with
  | .ok is => .next { s with script := is }
  | .error e => .refused (.badScript e)

end Sys2Proof.Machine
end

