-- ==== Sys2Proof/Machine/Fetch.lean ====
section
/-! DEFINITION. Where the next operation comes from: the host's next move, the sampling of the pins, and the pseudo lines. -/

namespace Sys2Proof.Machine

/-- A clean level as a bit; none for a level that is not a value of the control format (30_encoding R72). -/
def Level.bit : Level → Option Bool
  | .low => some false
  | .high => some true
  | .unclean => none

/-- out_ready as the host drives it (70_reset_and_hazards R240), given the cycle's rst and in_valid. -/
def ReadyDrive.bit (d : ReadyDrive) (rst inValid : Bool) (r : Regs) : Except Refusal Bool :=
  match d with
  | .level l =>
    match l.bit with
    | some b => .ok b
    | none => .error .uncleanControl
  | .followInValid => .ok inValid
  | .followOutValid => .ok (!rst && r.s2Valid)
  | .followInReady => .error .combinationalLoop

/-- The sampling of the input pins at the edge (00_scope R11; 60_exceptions R201(a), (c)). An in_data that is not clean is refused
at an input transfer only; in another cycle it is not sampled, and the port holds any value (log entry 10). -/
def sample (d : Drive) (s : State) : Except Refusal Ports :=
  match d.rst.bit, d.inValid.bit with
  | some rst, some inValid =>
    match d.outReady.bit rst inValid s.regs with
    | .error e => .error e
    | .ok outReady =>
      match d.inData with
      | some x => .ok { rst := rst, inValid := inValid, outReady := outReady, inData := x }
      | none =>
        let p : Ports := { rst := rst, inValid := inValid, outReady := outReady, inData := Config.freeInData s.draws }
        if inFire (s.drive p) then .error .uncleanInData else .ok p
  | _, _ => .error .uncleanControl

/-- The control vector {rst, in_valid, out_ready} of the sampled pins (30_encoding R70). -/
def Ports.ctrl (p : Ports) : BitVec 3 := BitVec.ofBool p.rst ++ BitVec.ofBool p.inValid ++ BitVec.ofBool p.outReady

/-- Decode and execute one encoded operation. -/
def runCode (w : Code) (s : State) : Host.Outcome State Fault Refusal :=
  match decode w with
  | .ok i => exec i s
  | .error r => .refused (.undecodable r)

/-- One cycle with the pins as the host drives them. -/
def runDrive (d : Drive) (s : State) : Host.Outcome State Fault Refusal :=
  match sample d s with
  | .ok p => runCode (.ctrl p.ctrl p.inData) (s.drive p)
  | .error r => .refused r

/-- What is left of PUSHW h after a cycle of it (30_encoding R84): it goes on until a cycle with in_ready = 1. -/
def pushwRest (h : DataIn) (rest : List Stimulus) (s : State) : List Stimulus :=
  if inReady (s.drive { rst := false, inValid := true, outReady := false, inData := h }) then rest else .pushw h :: rest

/-- One cycle of PUSHW h (30_encoding R84): the line PUSH h. -/
def runPushw (h : DataIn) (rest : List Stimulus) (s : State) : Host.Outcome State Fault Refusal :=
  runDrive (linePush h) { s with script := pushwRest h rest s }

/-- What is left of DRAIN after a cycle of it (30_encoding R84): it goes on until the second of two consecutive cycles with
out_valid = 0. -/
def drainRest (seenEmpty : Bool) (rest : List Stimulus) (s : State) : List Stimulus :=
  if outValid (s.drive { rst := false, inValid := false, outReady := true, inData := 0 }) then .drain false :: rest
  else if seenEmpty then rest
  else .drain true :: rest

/-- One cycle of DRAIN (30_encoding R84): the line POP, with in_data driven as 0 (R81). -/
def runDrain (seenEmpty : Bool) (rest : List Stimulus) (s : State) : Host.Outcome State Fault Refusal :=
  runDrive linePop { s with script := drainRest seenEmpty rest s }

/-- The first cycle of ENCODE h (30_encoding R84): the line PUSH h now, IDLE and POP after it. It is defined only from the drained
state. -/
def runEncode (h : DataIn) (rest : List Stimulus) (s : State) : Host.Outcome State Fault Refusal :=
  if drained s then runDrive (linePush h) { s with script := .cycle lineIdle :: .cycle linePop :: rest }
  else .refused .encodeNotDrained

/-- The host's next move. -/
def runStimulus (x : Stimulus) (rest : List Stimulus) (s : State) : Host.Outcome State Fault Refusal :=
  match x with
  | .cycle d => runDrive d { s with script := rest }
  | .evaluate w => runCode w { s with script := rest }
  | .pushw h => runPushw h rest s
  | .drain seenEmpty => runDrain seenEmpty rest s
  | .encode h => runEncode h rest s
  | .clockStopped => .next { s with script := rest }
  | .powerLoss => .next { s.losePower with script := rest }

/-- One step: the host's next move, or, when it has none, a stopped clock, under which nothing changes (60_exceptions R217;
log entry 8). -/
def runNext (s : State) : Host.Outcome State Fault Refusal :=
  match s.script with
  | [] => .next s
  | x :: rest => runStimulus x rest s

/-- The host's move that runs one encoded operation: a control vector is driven on the pins, another word is evaluated. -/
def moveOf : Code → Stimulus
  | .ctrl c inData => .cycle (.ofPins (c.getLsbD 2) (c.getLsbD 1) (c.getLsbD 0) inData)
  | w => .evaluate w

end Sys2Proof.Machine
end

