-- ==== Sys2Proof/Machine/Step.lean ====
section
/-! DEFINITION. The step function, and how one table word is placed where the next step takes it. -/

namespace Sys2Proof.Machine

/-- One step of the machine: the host's next move (one clock cycle, for a cycle). -/
def step (s : State) : Host.Outcome State Fault Refusal := runNext s

/-- `s` with the word `w` of the opcode table as the host's very next move. The block fetches nothing (10_state R31): what a cycle
does is decided by what the host drives, so this puts the move first in the host's script (log entry 8). -/
def State.withFetchWord (s : State) (nbits w : Nat) : State :=
  { s with script := moveOf (tableCode nbits w) :: s.script }

end Sys2Proof.Machine
end

