-- ==== Sys2Proof/Machine/Reference.lean ====
section
/-! DEFINITION. The other forms in which the spec writes the same functions, for claims to compare with: the source's
expressions, the lane map, the bit stream, the arithmetic alphabet, the reference process, and the step function in one piece. -/

namespace Sys2Proof.Machine

/-- `x >> 2`, on non-negative integers (30_encoding R77, 00_scope R9). -/
def exprA (x : Byte) : Nat := x.toNat >>> 2

/-- `((x & 0x03) << 4) | (y >> 4)` (30_encoding R77). -/
def exprB (x y : Byte) : Nat := ((x.toNat &&& 0x03) <<< 4) ||| (y.toNat >>> 4)

/-- `((y & 0x0f) << 2) | (z >> 6)` (30_encoding R77). -/
def exprC (y z : Byte) : Nat := ((y.toNat &&& 0x0f) <<< 2) ||| (z.toNat >>> 6)

/-- `z & 0x3f` (30_encoding R77). -/
def exprD (z : Byte) : Nat := z.toNat &&& 0x3f

/-- `(x & 0x03) << 4` (30_encoding R77). -/
def exprT (x : Byte) : Nat := (x.toNat &&& 0x03) <<< 4

/-- The lane map by its general rule (30_encoding R78, last paragraph). -/
def laneByMap (d : DataIn) (j : Nat) : Index :=
  if j = 20 then windowA (inByte d 15)
  else if j = 21 then windowT (inByte d 15)
  else
    let k := 3 * (j / 4)
    match j % 4 with
    | 0 => windowA (inByte d k)
    | 1 => windowB (inByte d k) (inByte d (k + 1))
    | 2 => windowC (inByte d (k + 1)) (inByte d (k + 2))
    | _ => windowD (inByte d (k + 2))

/-- Bit p of the 132-bit stream S, numbered from its first bit: the input bits most significant first, then four zeros
(40_window_extract R124). -/
def streamBit (d : DataIn) (p : Nat) : Bool :=
  if p < 128 then (inByte d (p / 8)).getLsbD (7 - p % 8) else false

/-- The j-th 6-bit window of the stream (40_window_extract R124). -/
def streamIndex (d : DataIn) (j : Nat) : Nat :=
  (streamBit d (6 * j)).toNat * 32 + (streamBit d (6 * j + 1)).toNat * 16 + (streamBit d (6 * j + 2)).toNat * 8 +
  (streamBit d (6 * j + 3)).toNat * 4 + (streamBit d (6 * j + 4)).toNat * 2 + (streamBit d (6 * j + 5)).toNat

/-- The arithmetic form of ALPHA (41_alphabet_lut R142). -/
def lutArith (i : Nat) : Nat :=
  if i ≤ 25 then 0x41 + i
  else if i ≤ 51 then 0x61 + (i - 26)
  else if i ≤ 61 then 0x30 + (i - 52)
  else if i = 62 then 0x5F
  else 0x2D

/-- The standard Base64 alphabet (42_stream_ops R161(a)): ALPHA at indices 0 to 61, `+` at 62, `/` at 63. -/
def standardChar (i : Nat) : Nat :=
  if i ≤ 61 then lutArith i else if i = 62 then 0x2B else 0x2F

/-- Standard Base64 with `=` padding (42_stream_ops R161(a)). -/
def standardBase64 : List Byte → List Nat
  | x :: y :: z :: rest =>
    standardChar (exprA x) :: standardChar (exprB x y) :: standardChar (exprC y z) :: standardChar (exprD z) ::
      standardBase64 rest
  | [x, y] => [standardChar (exprA x), standardChar (exprB x y), standardChar ((y.toNat &&& 0x0f) <<< 2), 0x3D]
  | [x] => [standardChar (exprA x), standardChar (exprT x), 0x3D, 0x3D]
  | [] => []

/-- `/` becomes `-` and `+` becomes `_` (42_stream_ops R161(b)). -/
def urlChar (c : Nat) : Nat := if c = 0x2F then 0x2D else if c = 0x2B then 0x5F else c

/-- The bytes b[0] to b[15], in order (00_scope R10). -/
def inBytes (d : DataIn) : List Byte := (List.range 16).map (inByte d)

/-- The reference process (42_stream_ops R161): standard Base64, the substitution, and the last two characters discarded. -/
def referenceProcess (d : DataIn) : List Nat :=
  ((standardBase64 (inBytes d)).map urlChar).dropLast.dropLast

/-- The step function as 42_stream_ops R162 writes it, on the registers and the inputs alone. -/
def stepRegs (p : Ports) (r : Regs) : Regs :=
  if p.rst then { r with s1Valid := false, s2Valid := false }
  else
    let ready := !r.s1Valid || !r.s2Valid || p.outReady
    let fire := p.inValid && ready
    let adv := r.s1Valid && (!r.s2Valid || p.outReady)
    { s2Valid := adv || (r.s2Valid && !p.outReady)
      s2Char := if adv then lutAll r.s1Idx else r.s2Char
      s1Valid := fire || (r.s1Valid && !adv)
      s1Idx := if fire then win p.inData else r.s1Idx }

/-- The upper-case hexadecimal digit of a nibble (30_encoding R80). -/
def hexChar (n : BitVec 4) : Char := if n.toNat < 10 then Char.ofNat (48 + n.toNat) else Char.ofNat (55 + n.toNat)

/-- The hex literal of a list of bytes, high nibble first (30_encoding R82). -/
def hexText : List Byte → List Char
  | [] => []
  | b :: bs => hexChar (b.extractLsb' 4 4) :: hexChar (b.extractLsb' 0 4) :: hexText bs

end Sys2Proof.Machine
end

