-- ==== Sys2Proof/Safety.lean ====
section
/-! DEFINITION. What counts as a safe run, in the terms the claims use: the queue of transactions, the invariants, frames, and
runs of several steps or operations. -/

namespace Sys2Proof.Machine

/-- The out_data word of a transaction: ENC(d) on the bus (42_stream_ops R160, 10_state R24). -/
def encWord (d : DataIn) : DataOut := packChars (enc d)

/-- The queue Q of 10_state R35, oldest first, with every S1 entry read as LUT of its indices (42_stream_ops R172). -/
def queue (s : State) : List DataOut :=
  (if s.regs.s2Valid then [packChars s.regs.s2Char] else []) ++
  (if s.regs.s1Valid then [packChars (lutAll s.regs.s1Idx)] else [])

/-- FIFO order, no loss, no duplication (20_memory R58): since the last reset, what was delivered and what is still in the queue
are together ENC of what was accepted, in order. -/
def FifoInv (s : State) : Prop :=
  s.initialised = true → s.delivered ++ queue s = s.accepted.map encWord

/-- What the data registers hold (10_state R29): while a stage is valid, it holds WIN, or ENC, of an accepted word. -/
def FlightInv (s : State) : Prop :=
  s.initialised = true →
    (s.regs.s1Valid = true → ∃ d ∈ s.accepted, s.regs.s1Idx = win d) ∧
    (s.regs.s2Valid = true → ∃ d ∈ s.accepted, s.regs.s2Char = enc d)

/-- A code of the set A-Z, a-z, 0-9, `_`, `-` (41_alphabet_lut R141, R145). -/
abbrev inAlphabet (c : CharCode) : Prop :=
  (0x41 ≤ c.toNat ∧ c.toNat ≤ 0x5A) ∨ (0x61 ≤ c.toNat ∧ c.toNat ≤ 0x7A) ∨ (0x30 ≤ c.toNat ∧ c.toNat ≤ 0x39) ∨
  c = 0x5F ∨ c = 0x2D

/-- A code the last character can have: 'A', 'Q', 'g', 'w' (41_alphabet_lut R150). -/
abbrev isTailChar (c : CharCode) : Prop := c = 0x41 ∨ c = 0x51 ∨ c = 0x67 ∨ c = 0x77

/-- The invariant of 10_state R28. -/
def AlphabetInv (s : State) : Prop :=
  s.initialised = true →
    (s.regs.s1Valid = true → (∀ j : Fin 22, s.regs.s1Idx[j].toNat < 64) ∧ s.regs.s1Idx[21].extractLsb' 0 4 = 0#4) ∧
    (s.regs.s2Valid = true → (∀ j : Fin 22, inAlphabet s.regs.s2Char[j]) ∧ isTailChar s.regs.s2Char[21])

/-- The same valid bits, and the same data in each stage that is valid (10_state R29, R41). -/
structure SameVisible (r q : Regs) : Prop where
  s1Valid : r.s1Valid = q.s1Valid
  s2Valid : r.s2Valid = q.s2Valid
  s1Idx : r.s1Valid = true → r.s1Idx = q.s1Idx
  s2Char : r.s2Valid = true → r.s2Char = q.s2Char

/-- What the nets that have a value hold: idx[j] its window of the present in_data, ch[j] the lookup of s1_idx[j], and that only
while S1 is valid, and the single lookup a code of the alphabet (40_window_extract R122, 41_alphabet_lut R140, 10_state R41). -/
structure NetsInv (s : State) : Prop where
  idx : ∀ (j : Fin 22) (v : Index), s.nets.idx[j] = some v → v = (win s.ports.inData)[j]
  ch : ∀ (j : Fin 22) (c : CharCode), s.nets.ch[j] = some c → s.regs.s1Valid = true ∧ c = lut s.regs.s1Idx[j]
  lutOut : ∀ c : CharCode, s.nets.lutOut = some c → ∃ i : Index, c = lut i

/-- What one clock cycle on the ports `p` leaves besides the registers: the ports as driven, no net with a value, the script
alone, the cycle counted, and the transfers noted that did happen. -/
structure CycleFrame (s t : State) (p : Ports) (inXfer outXfer : Bool) : Prop where
  ports : t.ports = p
  nets : t.nets = Nets.unsettled
  initialised : t.initialised = true
  cycle : t.cycle = s.cycle + 1
  draws : t.draws = s.draws + 1
  script : t.script = s.script
  accepted : t.accepted = if p.rst then [] else if inXfer then s.accepted ++ [p.inData] else s.accepted
  delivered : t.delivered = if p.rst then [] else if outXfer then s.delivered ++ [packChars s.regs.s2Char] else s.delivered
  observation : t.observation =
    if outXfer then s.observation ++ [⟨s.cycle, packChars s.regs.s2Char⟩] else s.observation

/-- The input b[i] = i of the worked examples of 40_window_extract. -/
def exampleUp : DataIn := 0x0F0E0D0C0B0A09080706050403020100

/-- The input b[i] = 0xF0 + i of the worked examples of 40_window_extract. -/
def exampleHigh : DataIn := 0xFFFEFDFCFBFAF9F8F7F6F5F4F3F2F1F0

/-- A lane rule of 40_window_extract whole: its selector, its value in bus bits and as the source's expression, the bits it reads
(`mask`) and none other, its corner cases (`top` where all its source bits are 1), its worked examples, and what evaluating it
does: the net idx[j] takes that value and nothing else changes. -/
def LaneRule (i : Instr) (j : Fin 22) (slice : DataIn → Index) (expr : DataIn → Nat) (mask : DataIn) (top up high : Index) : Prop :=
  decode (.lane (BitVec.ofNat 5 j)) = .ok i ∧
  (∀ d, (win d)[j] = slice d ∧ (win d)[j].toNat = expr d) ∧
  (∀ d e, d &&& mask = e &&& mask → (win d)[j] = (win e)[j]) ∧
  (∀ d, d &&& mask = 0 → (win d)[j] = 0 ∧ (enc d)[j] = 0x41) ∧
  (∀ d, d &&& mask = mask → (win d)[j] = top ∧ (enc d)[j] = lut top) ∧
  (win exampleUp)[j] = up ∧ (win exampleHigh)[j] = high ∧
  (∀ s, ∃ t, exec i s = .next t ∧ t.nets.idx[j] = some (slice s.ports.inData) ∧
    (∀ k : Fin 22, k ≠ j → t.nets.idx[k] = s.nets.idx[k]) ∧
    t = { s with nets := { s.nets with idx := t.nets.idx } })

/-- One clock cycle with the input ports at the clean levels `p`: the operation their control vector selects (30_encoding R70,
R71), on the ports so driven. -/
def runPins (p : Ports) (s : State) : Host.Outcome State Fault Refusal :=
  exec (decodeCtrl p.ctrl p.inData) (s.drive p)

/-- Clock cycles one after the other, on the clean levels of a list. -/
def runPinsAll : List Ports → State → Host.Outcome State Fault Refusal
  | [], s => .next s
  | p :: ps, s =>
    match runPins p s with
    | .next t => runPinsAll ps t
    | .fault f => .fault f
    | .refused r => .refused r

/-- Operations one after the other. -/
def execAll : List Instr → State → Host.Outcome State Fault Refusal
  | [], s => .next s
  | i :: is, s =>
    match exec i s with
    | .next t => execAll is t
    | .fault f => .fault f
    | .refused r => .refused r

/-- The 22 lanes, in the table's order. -/
def laneInstrs : List Instr :=
  [.lane0, .lane1, .lane2, .lane3, .lane4, .lane5, .lane6, .lane7, .lane8, .lane9, .lane10,
   .lane11, .lane12, .lane13, .lane14, .lane15, .lane16, .lane17, .lane18, .lane19, .lane20, .lane21]

/-- `n` steps, stopping at a refusal. -/
def stepN : Nat → State → Host.Outcome State Fault Refusal
  | 0, s => .next s
  | n + 1, s =>
    match step s with
    | .next t => stepN n t
    | .fault f => .fault f
    | .refused r => .refused r

/-- A safe run: it begins in a state that has been reset and meets the invariants of the block. -/
structure SafeState (s : State) : Prop where
  initialised : s.initialised = true
  fifo : FifoInv s
  flight : FlightInv s
  alphabet : AlphabetInv s
  nets : NetsInv s

end Sys2Proof.Machine
end

