-- ==== Sys2Proof/Certificates/Slice0/Obligations.lean ====
section
/-! DEFINITION. The statements about the block, one definition each. Each docstring names the rules of spec/ it formalises. -/

open Sys2Proof Sys2Proof.Machine

/-- Decoding the encoded form of any operation gives it back, operands included (R71, R73, R75, R78, R79). -/
def Obligations.DecodeOfEncodeIsTheOperation : Prop :=
  ∀ i : Instr, i.wellFormed = true → decode (encode i) = .ok i ∧ (encode i).wellFormed = true

/-- Encoding what a word decodes to gives the word back, but for what RESET and wordless cycles ignore (R70, R71, R72, R75, R79,
R81). -/
def Obligations.EncodeOfDecodeIsTheWord : Prop :=
  (∀ sel i, decode (.lane sel) = .ok i → encode i = .lane sel) ∧
  (∀ x i, decode (.index x) = .ok i → encode i = .index x) ∧
  (∀ c d i, decode (.ctrl c d) = .ok i → ∃ c' d', encode i = .ctrl c' d' ∧
    (c.getLsbD 2 = false → c' = c) ∧ (c.getLsbD 2 = true → c' = 0b100 ∧ d' = 0) ∧
    (c.getLsbD 2 = false → c.getLsbD 1 = true → d' = d) ∧ (c.getLsbD 2 = false → c.getLsbD 1 = false → d' = 0))

/-- The decoder accepts exactly the well-formed codes, and every operation it gives is well formed (R72, R76, R79). -/
def Obligations.DecoderAcceptsExactlyWellFormedWords : Prop :=
  ∀ w : Code,
    ((∃ i, decode w = .ok i ∧ i.wellFormed = true) ↔ w.wellFormed = true) ∧
    (∀ r, decode w = .error r →
      (∃ sel, w = .lane sel ∧ 22 ≤ sel.toNat ∧ r = .noSuchLane sel) ∨ (∃ n v, w = .unknown n v ∧ r = .noFormat n v))

/-- Lane selectors 22 to 31 are refused by the decoder, and a step that meets one is refused by name (R76). -/
def Obligations.LaneSelectorsAbove21AreRefused : Prop :=
  ∀ sel : BitVec 5, 22 ≤ sel.toNat →
    decode (.lane sel) = .error (.noSuchLane sel) ∧
    ∀ (s : State) (rest : List Stimulus), s.script = .evaluate (.lane sel) :: rest →
      step s = .refused (.undecodable (.noSuchLane sel))

/-- Every well-formed code is taken by exactly one row of the opcode table, the row of the operation it decodes to (R71, R72,
R75, R79). -/
def Obligations.EveryWellFormedWordFitsOneTableRow : Prop :=
  ∀ (w : Code) (i : Instr), decode w = .ok i →
    ∃ r ∈ opcodeTable, r.takes w = true ∧ r.mnemonic = i.mnemonic ∧ ∀ q ∈ opcodeTable, q.takes w = true → q = r

/-- Words written out from the encodings of the spec decode to the operations they stand for (R71, R78, R79). -/
def Obligations.WordsOfTheSpecDecodeAsWritten : Prop :=
  decode (.ctrl 0b100 0) = .ok .reset ∧ decode (.ctrl 0b111 exampleUp) = .ok .reset ∧
  decode (.ctrl 0b000 0) = .ok .idle ∧ decode (.ctrl 0b010 exampleUp) = .ok (.push exampleUp) ∧
  decode (.ctrl 0b001 0) = .ok .pop ∧ decode (.ctrl 0b011 exampleHigh) = .ok (.pushpop exampleHigh) ∧
  decode (.lane 0b00000) = .ok .lane0 ∧ decode (.lane 0b01011) = .ok .lane11 ∧ decode (.lane 0b10101) = .ok .lane21 ∧
  decode (.index 0b111110) = .ok (.lut 62)

/-- A step runs the operation its pins, or its code, decode to (R11, R70, R71). That the host's moves are a list, and that a
lane or index code can be a move and a step of its own, is the model's choice: log entries 8 and 5. -/
def Obligations.StepRunsTheDecodedOperation : Prop :=
  ∀ (s : State) (rest : List Stimulus) (i : Instr),
    (∀ d p, s.script = .cycle d :: rest → sample d { s with script := rest } = .ok p →
      decode (.ctrl p.ctrl p.inData) = .ok i → step s = exec i { s with ports := p, script := rest }) ∧
    (∀ w, s.script = .evaluate w :: rest → decode w = .ok i → step s = exec i { s with script := rest })

/-- A table word placed by withFetchWord is what the very next step runs (R70, R71, R75, R79). How a bare table word is read and
placed, and that a lane or index code is a step of its own, is the model's choice: log entries 5, 8 and 11. -/
def Obligations.PlacedTableWordIsTheNextOperation : Prop :=
  ∀ (s : State) (nbits w : Nat),
    (∀ c d, tableCode nbits w = .ctrl c d → decodeTableWord nbits w = some (decodeCtrl c d) ∧
      step (s.withFetchWord nbits w) =
        exec (decodeCtrl c d)
          (s.drive { rst := c.getLsbD 2, inValid := c.getLsbD 1, outReady := c.getLsbD 0, inData := d })) ∧
    (∀ i, (∀ c d, tableCode nbits w ≠ .ctrl c d) → decodeTableWord nbits w = some i →
      step (s.withFetchWord nbits w) = exec i s) ∧
    (∀ r, decode (tableCode nbits w) = .error r →
      decodeTableWord nbits w = none ∧ step (s.withFetchWord nbits w) = .refused (.undecodable r))

/-- Window lanes 0, 4, 8, 12, 16, 20 (shape W_A) compute what their rules give and complete in every state (R100, R104, R108,
R112, R116, R120). That a lane can be evaluated by itself, completes then in every state and leaves every other net as it was is
the model's choice: log entry 5, and before the first reset log entry 7. -/
def Obligations.LanesOfShapeAFollowTheirRules : Prop :=
  LaneRule .lane0 0 (fun d => d.extractLsb' 2 6) (fun d => exprA (inByte d 0))
    0x000000000000000000000000000000FC 63 0 60 ∧
  LaneRule .lane4 4 (fun d => d.extractLsb' 26 6) (fun d => exprA (inByte d 3))
    0x000000000000000000000000FC000000 63 0 60 ∧
  LaneRule .lane8 8 (fun d => d.extractLsb' 50 6) (fun d => exprA (inByte d 6))
    0x000000000000000000FC000000000000 63 1 61 ∧
  LaneRule .lane12 12 (fun d => d.extractLsb' 74 6) (fun d => exprA (inByte d 9))
    0x000000000000FC000000000000000000 63 2 62 ∧
  LaneRule .lane16 16 (fun d => d.extractLsb' 98 6) (fun d => exprA (inByte d 12))
    0x000000FC000000000000000000000000 63 3 63 ∧
  LaneRule .lane20 20 (fun d => d.extractLsb' 122 6) (fun d => exprA (inByte d 15))
    0xFC000000000000000000000000000000 63 3 63

/-- Window lanes 1, 5, 9, 13, 17 (shape W_B) compute what their rules give and complete in every state (R101, R105, R109, R113,
R117). That a lane can be evaluated by itself, completes then in every state and leaves every other net as it was is the model's
choice: log entry 5, and before the first reset log entry 7. -/
def Obligations.LanesOfShapeBFollowTheirRules : Prop :=
  LaneRule .lane1 1 (fun d => d.extractLsb' 0 2 ++ d.extractLsb' 12 4) (fun d => exprB (inByte d 0) (inByte d 1))
    0x0000000000000000000000000000F003 63 0 15 ∧
  LaneRule .lane5 5 (fun d => d.extractLsb' 24 2 ++ d.extractLsb' 36 4) (fun d => exprB (inByte d 3) (inByte d 4))
    0x0000000000000000000000F003000000 63 48 63 ∧
  LaneRule .lane9 9 (fun d => d.extractLsb' 48 2 ++ d.extractLsb' 60 4) (fun d => exprB (inByte d 6) (inByte d 7))
    0x0000000000000000F003000000000000 63 32 47 ∧
  LaneRule .lane13 13 (fun d => d.extractLsb' 72 2 ++ d.extractLsb' 84 4) (fun d => exprB (inByte d 9) (inByte d 10))
    0x0000000000F003000000000000000000 63 16 31 ∧
  LaneRule .lane17 17 (fun d => d.extractLsb' 96 2 ++ d.extractLsb' 108 4) (fun d => exprB (inByte d 12) (inByte d 13))
    0x0000F003000000000000000000000000 63 0 15

/-- Window lanes 2, 6, 10, 14, 18 (shape W_C) compute what their rules give and complete in every state (R102, R106, R110, R114,
R118). That a lane can be evaluated by itself, completes then in every state and leaves every other net as it was is the model's
choice: log entry 5, and before the first reset log entry 7. -/
def Obligations.LanesOfShapeCFollowTheirRules : Prop :=
  LaneRule .lane2 2 (fun d => d.extractLsb' 8 4 ++ d.extractLsb' 22 2) (fun d => exprC (inByte d 1) (inByte d 2))
    0x00000000000000000000000000C00F00 63 4 7 ∧
  LaneRule .lane6 6 (fun d => d.extractLsb' 32 4 ++ d.extractLsb' 46 2) (fun d => exprC (inByte d 4) (inByte d 5))
    0x00000000000000000000C00F00000000 63 16 19 ∧
  LaneRule .lane10 10 (fun d => d.extractLsb' 56 4 ++ d.extractLsb' 70 2) (fun d => exprC (inByte d 7) (inByte d 8))
    0x00000000000000C00F00000000000000 63 28 31 ∧
  LaneRule .lane14 14 (fun d => d.extractLsb' 80 4 ++ d.extractLsb' 94 2) (fun d => exprC (inByte d 10) (inByte d 11))
    0x00000000C00F00000000000000000000 63 40 43 ∧
  LaneRule .lane18 18 (fun d => d.extractLsb' 104 4 ++ d.extractLsb' 118 2) (fun d => exprC (inByte d 13) (inByte d 14))
    0x00C00F00000000000000000000000000 63 52 55

/-- Window lanes 3, 7, 11, 15, 19 (shape W_D) compute what their rules give and complete in every state (R103, R107, R111, R115,
R119). That a lane can be evaluated by itself, completes then in every state and leaves every other net as it was is the model's
choice: log entry 5, and before the first reset log entry 7. -/
def Obligations.LanesOfShapeDFollowTheirRules : Prop :=
  LaneRule .lane3 3 (fun d => d.extractLsb' 16 6) (fun d => exprD (inByte d 2))
    0x000000000000000000000000003F0000 63 2 50 ∧
  LaneRule .lane7 7 (fun d => d.extractLsb' 40 6) (fun d => exprD (inByte d 5))
    0x000000000000000000003F0000000000 63 5 53 ∧
  LaneRule .lane11 11 (fun d => d.extractLsb' 64 6) (fun d => exprD (inByte d 8))
    0x000000000000003F0000000000000000 63 8 56 ∧
  LaneRule .lane15 15 (fun d => d.extractLsb' 88 6) (fun d => exprD (inByte d 11))
    0x000000003F0000000000000000000000 63 11 59 ∧
  LaneRule .lane19 19 (fun d => d.extractLsb' 112 6) (fun d => exprD (inByte d 14))
    0x003F0000000000000000000000000000 63 14 62

/-- Window lane 21 (shape W_T) computes what its rule gives and completes in every state (R121). That a lane can be evaluated by
itself, completes then in every state and leaves every other net as it was is the model's choice: log entry 5, and before the
first reset log entry 7. -/
def Obligations.TailLane21FollowsItsRule : Prop :=
  LaneRule .lane21 21 (fun d => d.extractLsb' 120 2 ++ 0#4) (fun d => exprT (inByte d 15))
    0x03000000000000000000000000000000 48 48 48 ∧
  ∀ d, ((win d)[21] = 0 ∨ (win d)[21] = 16 ∨ (win d)[21] = 32 ∨ (win d)[21] = 48) ∧ (win d)[21].extractLsb' 0 4 = 0#4 ∧
    isTailChar (enc d)[21]

/-- The 22 lanes, evaluated in any order, leave the window nets at WIN(in_data) and nothing else changed (R122, R126). Lanes
evaluated by themselves, one after the other, exist in the model only: log entry 5, and before the first reset log entry 7. -/
def Obligations.LanesEvaluatedInAnyOrderGiveWin : Prop :=
  ∀ (l : List Instr), l.Perm laneInstrs → ∀ s : State,
    execAll l s = .next { s with nets := { s.nets with idx := (win s.ports.inData).map some } }

/-- Each window shape is its source expression, on every byte value, and below 64 (R77). -/
def Obligations.WindowShapesAgreeWithTheirExpressions : Prop :=
  ∀ x y : Byte,
    ((windowA x).toNat = exprA x ∧ exprA x < 64) ∧ ((windowB x y).toNat = exprB x y ∧ exprB x y < 64) ∧
    ((windowC x y).toNat = exprC x y ∧ exprC x y < 64) ∧ ((windowD x).toNat = exprD x ∧ exprD x < 64) ∧
    ((windowT x).toNat = exprT x ∧ exprT x < 64) ∧
    (∀ k : Fin 6, (windowA x).getLsbD k = x.getLsbD (k + 2) ∧ (windowD x).getLsbD k = x.getLsbD k ∧
      (windowB x y).getLsbD k = (if k.val < 4 then y.getLsbD (k + 4) else x.getLsbD (k - 4)) ∧
      (windowC x y).getLsbD k = (if k.val < 2 then y.getLsbD (k + 6) else x.getLsbD (k - 2)) ∧
      (windowT x).getLsbD k = (if k.val < 4 then false else x.getLsbD (k - 4)))

/-- The source expressions stay within 63, 48, 15, 60 and 3, and idx[21] is 0, 16, 32 or 48 (R123). -/
def Obligations.WindowExpressionsStayInRange : Prop :=
  (∀ x y : Byte, x.toNat >>> 2 ≤ 63 ∧ x.toNat &&& 0x3f ≤ 63 ∧
    (x.toNat &&& 0x03) <<< 4 ≤ 48 ∧ y.toNat >>> 4 ≤ 15 ∧ ((x.toNat &&& 0x03) <<< 4) &&& (y.toNat >>> 4) = 0 ∧
    (x.toNat &&& 0x0f) <<< 2 ≤ 60 ∧ y.toNat >>> 6 ≤ 3 ∧ ((x.toNat &&& 0x0f) <<< 2) &&& (y.toNat >>> 6) = 0 ∧
    exprB x y ≤ 63 ∧ exprC x y ≤ 63) ∧
  (∀ (d : DataIn) (j : Fin 22), (win d)[j].toNat ≤ 63) ∧
  (∀ d : DataIn, (win d)[21].toNat = exprT (inByte d 15) ∧ (win d)[21].toNat ∈ [0, 16, 32, 48])

/-- Every window index is the shape and the source bytes the lane map gives it (R78). -/
def Obligations.WindowsFollowTheLaneMap : Prop :=
  ∀ (d : DataIn) (j : Fin 22), (win d)[j] = laneByMap d j

/-- WIN is the bit-stream form: index j is the j-th 6-bit window of the 128 input bits and four zeros (R124). -/
def Obligations.WindowsReadTheBitStream : Prop :=
  ∀ (d : DataIn) (j : Fin 22), (win d)[j].toNat = streamIndex d j

/-- Every input bit is read by exactly one lane, at exactly one position, and WIN is injective (R125). -/
def Obligations.EveryInputBitIsReadOnce : Prop :=
  (∀ (d : DataIn) (j : Fin 22) (k : Fin 6), (win d)[j].getLsbD k =
    if 6 * j.val + 5 - k.val < 128 then
      (inByte d ((6 * j.val + 5 - k.val) / 8)).getLsbD (7 - (6 * j.val + 5 - k.val) % 8)
    else false) ∧
  (∀ (d : DataIn) (i : Fin 16) (m : Fin 8) (j : Fin 22),
    (win (d ^^^ (1#128 <<< (8 * i.val + m.val))))[j] ≠ (win d)[j] ↔ j.val = (8 * i.val + (7 - m.val)) / 6) ∧
  (∀ d : DataIn, (win d)[21].extractLsb' 0 4 = 0#4) ∧
  (∀ d e : DataIn, win d = win e → d = e)

/-- Lanes 4g to 4g+3 read only bytes 3g to 3g+2, and lanes 20 and 21 only byte 15 (R128). -/
def Obligations.LanesReadOnlyTheirGroup : Prop :=
  ∀ d e : DataIn,
    (∀ g : Fin 5, inByte d (3 * g) = inByte e (3 * g) → inByte d (3 * g + 1) = inByte e (3 * g + 1) →
      inByte d (3 * g + 2) = inByte e (3 * g + 2) → ∀ r : Fin 4, ∀ j : Fin 22, j.val = 4 * g.val + r.val →
        (win d)[j] = (win e)[j]) ∧
    (inByte d 15 = inByte e 15 → (win d)[20] = (win e)[20] ∧ (win d)[21] = (win e)[21])

/-- LUT i completes in every state with the code of the alphabet at i, and drives the lanes of a valid S1 whose index is i
(R140, R142, R143, R144, R41). That a lookup can be evaluated by itself, completes then in every state and drives the lanes
whose index it is, is the model's choice: log entry 5, and before the first reset log entry 7. -/
def Obligations.LookupGivesTheAlphabetCode : Prop :=
  ∀ (i : Index) (s : State), ∃ t c, exec (.lut i) s = .next t ∧
    t.nets.lutOut = some c ∧ c.toNat = lutArith i.toNat ∧ (i = 62 → c = 0x5F) ∧ (i = 63 → c = 0x2D) ∧
    (s.regs.s1Valid = true → ∀ j : Fin 22, t.nets.ch[j] = if s.regs.s1Idx[j] = i then some c else s.nets.ch[j]) ∧
    (s.regs.s1Valid = false → t.nets.ch = s.nets.ch) ∧
    t = { s with nets := { s.nets with lutOut := t.nets.lutOut, ch := t.nets.ch } }

/-- Looking up every index that a valid S1 holds, in any order, leaves ch[j] = LUT(s1_idx[j]) in every lane; an empty S1 drives
none (R140, R148, R41). Lookups evaluated by themselves, one after the other, exist in the model only: log entry 5, and before
the first reset log entry 7. -/
def Obligations.LookupsOfAllIndicesSettleEveryLane : Prop :=
  ∀ (l : List Index) (s : State), ∃ t, execAll (l.map .lut) s = .next t ∧
    (s.regs.s1Valid = true → (∀ j : Fin 22, s.regs.s1Idx[j] ∈ l) →
      (∀ j : Fin 22, t.nets.ch[j] = some (lut s.regs.s1Idx[j])) ∧ t.nets.ch = (lutAll s.regs.s1Idx).map some) ∧
    (s.regs.s1Valid = false → t.nets.ch = s.nets.ch) ∧
    t = { s with nets := { s.nets with lutOut := t.nets.lutOut, ch := t.nets.ch } }

/-- ENC equals the reference process on every input: standard Base64, substituted and stripped (R161). -/
def Obligations.EncodeEqualsTheReferenceProcess : Prop :=
  ∀ d : DataIn, (enc d).toList.map BitVec.toNat = referenceProcess d ∧ (standardBase64 (inBytes d)).length = 24 ∧
    (standardBase64 (inBytes d)).drop 22 = [0x3D, 0x3D]

/-- Distinct inputs have distinct encodings, as characters and as words on out_data (R171). -/
def Obligations.EncodeIsInjective : Prop :=
  (∀ d e : DataIn, enc d = enc e → d = e) ∧ (∀ d e : DataIn, encWord d = encWord e → d = e)

/-- Every character of ENC is one of the 64 codes with bit 7 = 0, never + / or =, and the last is chosen by b[15][1:0] (R150).
-/
def Obligations.EncodedCharactersAreUrlSafe : Prop :=
  ∀ d : DataIn,
    (∀ j : Fin 22, inAlphabet (enc d)[j] ∧ (enc d)[j] ≠ 0x2B ∧ (enc d)[j] ≠ 0x2F ∧ (enc d)[j] ≠ 0x3D ∧
      (enc d)[j].getLsbD 7 = false) ∧
    ((inByte d 15).extractLsb' 0 2 = 0b00#2 → (enc d)[21] = 0x41) ∧
    ((inByte d 15).extractLsb' 0 2 = 0b01#2 → (enc d)[21] = 0x51) ∧
    ((inByte d 15).extractLsb' 0 2 = 0b10#2 → (enc d)[21] = 0x67) ∧
    ((inByte d 15).extractLsb' 0 2 = 0b11#2 → (enc d)[21] = 0x77) ∧
    isTailChar (enc d)[21]

/-- in_ready, out_valid and the character lanes of out_data are what their rules give (R37, R38, R39). -/
def Obligations.HandshakeOutputsFollowTheirFormulas : Prop :=
  ∀ s : State,
    (inReady s = true ↔
      s.ports.rst = false ∧ (s.regs.s1Valid = false ∨ s.regs.s2Valid = false ∨ s.ports.outReady = true)) ∧
    (outValid s = true ↔ s.ports.rst = false ∧ s.regs.s2Valid = true) ∧
    (outValid s = true → ∀ j : Fin 22, outChar (outData s) j = s.regs.s2Char[j]) ∧
    (outValid s = false → outData s = Config.freeOutData s.draws)

/-- While out_valid = 1, every character on out_data is of the alphabet and the last is A, Q, g or w (R86, R145). -/
def Obligations.ValidOutputStaysInTheAlphabet : Prop :=
  ∀ s : State, AlphabetInv s → s.initialised = true → outValid s = true →
    (∀ j : Fin 22, inAlphabet (outChar (outData s) j) ∧ outChar (outData s) j ≠ 0x2B ∧ outChar (outData s) j ≠ 0x2F ∧
      outChar (outData s) j ≠ 0x3D) ∧
    isTailChar (outChar (outData s) 21)

/-- RESET completes in every state: valid bits 0, data kept, nothing transferred, in-flight words discarded (R164). -/
def Obligations.ResetClearsTheValidBits : Prop :=
  ∀ s : State, ∃ t, exec .reset s = .next t ∧
    t.regs = { s.regs with s1Valid := false, s2Valid := false } ∧
    inReady (s.drive { s.ports with rst := true }) = false ∧ outValid (s.drive { s.ports with rst := true }) = false ∧
    CycleFrame s t { s.ports with rst := true } false false ∧
    queue t = [] ∧ (drained s = true → t.regs = s.regs) ∧ (∃ u, exec .reset t = .next u ∧ u.regs = t.regs) ∧
    (∀ (c : BitVec 3) (d : DataIn), c.getLsbD 2 = true → decode (.ctrl c d) = .ok .reset)

/-- IDLE completes: S1 advances into an empty S2, and otherwise no register changes (R165). -/
def Obligations.IdleAdvancesOrHolds : Prop :=
  ∀ s : State, s.initialised = true → ∃ t, exec .idle s = .next t ∧
    t.regs = { s1Valid := s.regs.s1Valid && s.regs.s2Valid, s1Idx := s.regs.s1Idx,
               s2Valid := s.regs.s2Valid || s.regs.s1Valid,
               s2Char := if s.regs.s1Valid && !s.regs.s2Valid then lutAll s.regs.s1Idx else s.regs.s2Char } ∧
    CycleFrame s t { s.ports with rst := false, inValid := false, outReady := false } false false ∧
    ((s.regs.s1Valid && !s.regs.s2Valid) = false → t.regs = s.regs) ∧
    inReady (s.drive { s.ports with rst := false, inValid := false, outReady := false }) =
      (!s.regs.s1Valid || !s.regs.s2Valid) ∧
    (∀ d : DataIn, decode (.ctrl 0b000 d) = .ok .idle)

/-- PUSH h completes: h goes into S1 and S1 moves on into S2, unless both stages are full, when nothing moves (R166). -/
def Obligations.PushAcceptsUnlessBothStagesAreFull : Prop :=
  ∀ (s : State) (h : DataIn), s.initialised = true → ∃ t, exec (.push h) s = .next t ∧
    ((s.regs.s1Valid && s.regs.s2Valid) = true → t.regs = s.regs ∧
      inReady (s.drive { rst := false, inValid := true, outReady := false, inData := h }) = false ∧
      CycleFrame s t { rst := false, inValid := true, outReady := false, inData := h } false false) ∧
    ((s.regs.s1Valid && s.regs.s2Valid) = false →
      t.regs.s1Valid = true ∧ t.regs.s1Idx = win h ∧
      (s.regs.s1Valid = true → t.regs.s2Valid = true ∧ t.regs.s2Char = lutAll s.regs.s1Idx) ∧
      (s.regs.s1Valid = false → t.regs.s2Valid = s.regs.s2Valid ∧ t.regs.s2Char = s.regs.s2Char) ∧
      CycleFrame s t { rst := false, inValid := true, outReady := false, inData := h } true false) ∧
    (drained s = true → occupancy t = 1 ∧ t.regs.s1Valid = true) ∧
    (s.regs.s1Valid = false → s.regs.s2Valid = true →
      occupancy t = 2 ∧ ∀ h', ∃ u, exec (.push h') t = .next u ∧ u.regs = t.regs ∧ u.accepted = t.accepted) ∧
    (s.regs.s1Valid = true → s.regs.s2Valid = false → occupancy t = 2) ∧
    decode (.ctrl 0b010 h) = .ok (.push h)

/-- POP completes: the host takes what S2 offers, and S1 moves into S2 (R167). -/
def Obligations.PopTakesTheOfferedWord : Prop :=
  ∀ s : State, s.initialised = true → ∃ t, exec .pop s = .next t ∧
    t.regs = { s1Valid := false, s1Idx := s.regs.s1Idx, s2Valid := s.regs.s1Valid,
               s2Char := if s.regs.s1Valid then lutAll s.regs.s1Idx else s.regs.s2Char } ∧
    CycleFrame s t { s.ports with rst := false, inValid := false, outReady := true } false s.regs.s2Valid ∧
    (s.regs.s1Valid = true → ∃ u, exec .pop t = .next u ∧
      u.delivered = t.delivered ++ [packChars (lutAll s.regs.s1Idx)]) ∧
    inReady (s.drive { s.ports with rst := false, inValid := false, outReady := true }) = true ∧
    (∀ d : DataIn, decode (.ctrl 0b001 d) = .ok .pop)

/-- PUSHPOP h completes: h is always accepted, the offered word is taken, and S1 moves into S2 (R168). -/
def Obligations.PushpopAlwaysAcceptsItsWord : Prop :=
  ∀ (s : State) (h : DataIn), s.initialised = true → ∃ t, exec (.pushpop h) s = .next t ∧
    t.regs = { s1Valid := true, s1Idx := win h, s2Valid := s.regs.s1Valid,
               s2Char := if s.regs.s1Valid then lutAll s.regs.s1Idx else s.regs.s2Char } ∧
    CycleFrame s t { rst := false, inValid := true, outReady := true, inData := h } true s.regs.s2Valid ∧
    (drained s = true → ∀ h', ∃ u, exec (.pushpop h') t = .next u ∧ u.delivered = s.delivered ∧
      u.observation = s.observation) ∧
    (∀ h', ∃ u, exec (.pushpop h') t = .next u ∧ ∀ h'', ∃ v, exec (.pushpop h'') u = .next v ∧
      v.accepted = s.accepted ++ [h, h', h''] ∧ v.delivered = u.delivered ++ [encWord h]) ∧
    decode (.ctrl 0b011 h) = .ok (.pushpop h)

/-- Every clean cycle takes the registers where the step function of the spec takes them, and notes its transfers (R162). -/
def Obligations.CycleIsTheStepFunction : Prop :=
  ∀ (p : Ports) (s : State), (s.initialised || p.rst) = true → ∃ t, runPins p s = .next t ∧
    t.regs = stepRegs p s.regs ∧ CycleFrame s t p (inFire (s.drive p)) (outFire (s.drive p))

/-- Input transfer, output transfer and advance happen exactly as the handshake says, and only a transfer reads in_data (R163).
-/
def Obligations.TransfersHappenAsTheHandshakeSays : Prop :=
  ∀ (p : Ports) (s : State), (s.initialised || p.rst) = true → ∃ t, runPins p s = .next t ∧
    (p.rst = false →
      inFire (s.drive p) = (p.inValid && inReady (s.drive p)) ∧ outFire (s.drive p) = (outValid (s.drive p) && p.outReady) ∧
      (inFire (s.drive p) = true → t.regs.s1Valid = true ∧ t.regs.s1Idx = win p.inData ∧
        t.accepted = s.accepted ++ [p.inData]) ∧
      (inFire (s.drive p) = false → t.regs.s1Idx = s.regs.s1Idx ∧ t.accepted = s.accepted) ∧
      (outFire (s.drive p) = true → t.delivered = s.delivered ++ [packChars s.regs.s2Char]) ∧
      (outFire (s.drive p) = false → t.delivered = s.delivered) ∧
      (advances (s.drive p) = true → t.regs.s2Valid = true ∧ t.regs.s2Char = lutAll s.regs.s1Idx) ∧
      (advances (s.drive p) = false → t.regs.s2Char = s.regs.s2Char)) ∧
    (p.rst = true → inFire (s.drive p) = false ∧ outFire (s.drive p) = false ∧ advances (s.drive p) = false) ∧
    (inFire (s.drive p) = false → ∀ x : DataIn, ∃ u, runPins { p with inData := x } s = .next u ∧
      u.regs = t.regs ∧ u.accepted = t.accepted ∧ u.delivered = t.delivered ∧ u.observation = t.observation ∧
      inReady (s.drive { p with inData := x }) = inReady (s.drive p) ∧
      outValid (s.drive { p with inData := x }) = outValid (s.drive p) ∧
      outData (s.drive { p with inData := x }) = outData (s.drive p))

/-- After a reset every one of the 28 operations completes in every state: none faults and none is refused (R162, R200, R122,
R140). That a lane or a lookup can be evaluated by itself is the model's choice: log entry 5. -/
def Obligations.EveryOperationCompletesAfterReset : Prop :=
  ∀ (i : Instr) (s : State), s.initialised = true → ∃ t, exec i s = .next t ∧ t.initialised = true ∧ t.script = s.script

/-- No net carries a value from cycle to cycle, and within a cycle a net holds only what the inputs and a valid S1 give it (R25,
R41, R122, R140). That the nets are fields of the state, with no value where nothing of the present cycle has evaluated them, is
the model's choice: log entry 5. -/
def Obligations.NetsCarryNothingBetweenCycles : Prop :=
  (∀ (p : Ports) (s : State) (n : Nets), runPins p { s with nets := n } = runPins p s) ∧
  (∀ (p : Ports) (s t : State), runPins p s = .next t → t.nets = Nets.unsettled) ∧
  (∀ s t : State, NetsInv s → step s = .next t → NetsInv t)

/-- in_ready, out_valid and the valid bits never depend on data (R176). -/
def Obligations.ControlIsDataOblivious : Prop :=
  ∀ (s u : State) (p q : Ports), s.initialised = true → u.initialised = true →
    s.regs.s1Valid = u.regs.s1Valid → s.regs.s2Valid = u.regs.s2Valid →
    p.rst = q.rst → p.inValid = q.inValid → p.outReady = q.outReady →
    inReady (s.drive p) = inReady (u.drive q) ∧ outValid (s.drive p) = outValid (u.drive q) ∧
    ∃ t v, runPins p s = .next t ∧ runPins q u = .next v ∧
      t.regs.s1Valid = v.regs.s1Valid ∧ t.regs.s2Valid = v.regs.s2Valid

/-- A result that is offered and not taken stays offered, with the same out_data, unless the block is reset (R173). -/
def Obligations.OfferedResultIsHeldUntilTaken : Prop :=
  ∀ (s : State) (p : Ports), s.initialised = true → outValid (s.drive p) = true → p.outReady = false →
    ∃ t, runPins p s = .next t ∧ ∀ q : Ports, q.rst = false →
      outValid (t.drive q) = true ∧ outData (t.drive q) = outData (s.drive p)

/-- A word offered while in_ready = 0 is neither sampled nor remembered; only the word at the transfer is encoded (R174). -/
def Obligations.StalledOfferIsNotRemembered : Prop :=
  ∀ (s : State) (p : Ports), s.initialised = true → p.rst = false → p.inValid = true → inReady (s.drive p) = false →
    ∃ t, runPins p s = .next t ∧ t.regs.s1Valid = s.regs.s1Valid ∧ t.regs.s1Idx = s.regs.s1Idx ∧
      t.accepted = s.accepted ∧
      ∀ q : Ports, q.rst = false → ∃ u, runPins q t = .next u ∧
        u.accepted = (if q.inValid && inReady (t.drive q) then s.accepted ++ [q.inData] else s.accepted) ∧
        u.regs.s1Idx = (if q.inValid && inReady (t.drive q) then win q.inData else s.regs.s1Idx)

/-- In the first cycle with rst = 0 after a reset in_ready = 1 and out_valid = 0, and PUSH and PUSHPOP transfer (R234). -/
def Obligations.FirstCycleAfterResetAccepts : Prop :=
  ∀ s : State, ∃ t, exec .reset s = .next t ∧ drained t = true ∧
    (∀ p : Ports, p.rst = false → inReady (t.drive p) = true ∧ outValid (t.drive p) = false) ∧
    (∀ h, ∃ u, exec (.push h) t = .next u ∧ u.accepted = [h] ∧ u.regs.s1Valid = true ∧ u.regs.s1Idx = win h) ∧
    (∀ h, ∃ u, exec (.pushpop h) t = .next u ∧ u.accepted = [h] ∧ u.regs.s1Valid = true ∧ u.regs.s1Idx = win h)

/-- The state after reset is drained, ready, and meets the invariants of a safe run (R40, R233, R234, R28, R29, R58). That rst
is released in it, that the lists are empty and that no net has a value is the model's choice: log entries 2, 6 and 5. -/
def Obligations.ResetStateIsDrainedAndReady : Prop :=
  State.reset.regs.s1Valid = false ∧ State.reset.regs.s2Valid = false ∧ inReady State.reset = true ∧
  outValid State.reset = false ∧ occupancy State.reset = 0 ∧ queue State.reset = [] ∧ SafeState State.reset

/-- A cycle does to the queue of transactions exactly what its transfers say: remove the head, append ENC, or nothing (R172). -/
def Obligations.CycleMovesTheQueueAsAFifo : Prop :=
  ∀ (s : State) (p : Ports), s.initialised = true → ∃ t, runPins p s = .next t ∧
    (p.rst = false →
      queue t = (if outFire (s.drive p) then (queue s).tail else queue s) ++
        (if inFire (s.drive p) then [encWord p.inData] else [])) ∧
    (outFire (s.drive p) = true → (queue s).head? = some (outData (s.drive p))) ∧
    (p.rst = true → queue t = []) ∧ (queue s).length ≤ Config.capacity ∧ (queue t).length ≤ Config.capacity

/-- Every step keeps FIFO order: delivered words, then those in flight, are ENC of the accepted words, in order (R58, R172,
R231). -/
def Obligations.EveryStepKeepsFifoOrder : Prop :=
  ∀ s t : State, FifoInv s → step s = .next t → FifoInv t

/-- The outputs are a prefix of ENC of the inputs, at most 2 behind, and all of them once the block is drained (R58, R175). -/
def Obligations.OutputsAreAPrefixOfEncodedInputs : Prop :=
  ∀ s : State, FifoInv s → s.initialised = true →
    s.delivered <+: s.accepted.map encWord ∧ s.delivered.length ≤ s.accepted.length ∧
    s.accepted.length ≤ s.delivered.length + Config.capacity ∧
    (drained s = true → s.delivered = s.accepted.map encWord) ∧
    s.accepted.length - s.delivered.length = occupancy s

/-- Every step keeps: a valid S1 holds WIN, and a valid S2 holds ENC, of an accepted word (R29). -/
def Obligations.EveryStepKeepsWhatTheStagesHold : Prop :=
  ∀ s t : State, FlightInv s → step s = .next t → FlightInv t

/-- Every step keeps the register invariant: valid indices have the tail zeros, valid characters are of the alphabet (R28). -/
def Obligations.EveryStepKeepsTheRegistersInRange : Prop :=
  ∀ s t : State, AlphabetInv s → step s = .next t → AlphabetInv t

/-- An accepted word is in S1 in the next cycle, advances at the first free S2, and is offered 2 cycles after acceptance without
back-pressure (R245). -/
def Obligations.LatencyIsTwoCyclesWithoutBackPressure : Prop :=
  ∀ (s : State) (p : Ports), s.initialised = true → inFire (s.drive p) = true →
    ∃ t, runPins p s = .next t ∧ t.cycle = s.cycle + 1 ∧ t.regs.s1Valid = true ∧ t.regs.s1Idx = win p.inData ∧
      ∀ (stalls : List Ports) (q : Ports), (∀ x ∈ stalls, x.rst = false ∧ x.outReady = false) →
        (stalls ≠ [] → t.regs.s2Valid = true) → q.rst = false →
        ∃ u, runPinsAll stalls t = .next u ∧ u.regs = t.regs ∧ u.cycle = s.cycle + 1 + stalls.length ∧
          ((t.regs.s2Valid = false ∨ q.outReady = true) → ∃ v, runPins q u = .next v ∧
            v.cycle = s.cycle + Config.latency + stalls.length ∧ v.regs.s2Valid = true ∧ v.regs.s2Char = enc p.inData ∧
            ∀ r : Ports, r.rst = false → outValid (v.drive r) = true ∧ outData (v.drive r) = encWord p.inData)

/-- With out_ready held 1, a word is accepted every cycle and delivered two cycles later (R246, R168). -/
def Obligations.ThroughputIsOneWordPerCycle : Prop :=
  ∀ (s : State) (a b c : DataIn), s.initialised = true → ∃ t u v,
    exec (.pushpop a) s = .next t ∧ exec (.pushpop b) t = .next u ∧ exec (.pushpop c) u = .next v ∧
    (∀ x h, x = s ∨ x = t ∨ x = u →
      inReady (x.drive { rst := false, inValid := true, outReady := true, inData := h }) = true) ∧
    v.accepted = s.accepted ++ [a, b, c] ∧ v.observation = u.observation ++ [⟨s.cycle + 2, encWord a⟩] ∧ occupancy v = 2

/-- Two transactions with equal in_data give equal out_data, in any runs and whatever happened between them (R169). -/
def Obligations.EqualWordsGiveEqualResults : Prop :=
  ∀ (s u : State) (k m : Nat), FifoInv s → FifoInv u → s.initialised = true → u.initialised = true →
    k < s.delivered.length → m < u.delivered.length → s.accepted[k]? = u.accepted[m]? → s.delivered[k]? = u.delivered[m]?

/-- The occupancy is the length of the queue, 0 to 2, seen only through out_valid and in_ready, and S1 alone is full for one
cycle at most (R35, R36). -/
def Obligations.OccupancyIsSeenThroughTheHandshake : Prop :=
  ∀ (s : State) (p : Ports), p.rst = false →
    occupancy s = (queue s).length ∧ occupancy s ≤ Config.capacity ∧
    outValid (s.drive p) = s.regs.s2Valid ∧
    (inReady (s.drive p) = false ↔ occupancy s = 2 ∧ p.outReady = false) ∧
    (s.initialised = true → s.regs.s1Valid = true → s.regs.s2Valid = false →
      ∃ t, runPins p s = .next t ∧ t.regs.s2Valid = true ∧ t.regs.s2Char = lutAll s.regs.s1Idx)

/-- No result depends on s1_idx or s2_char while their valid bit is 0 (R29, R40, R41, R42). A lookup evaluated by itself exists
in the model only: log entry 5. -/
def Obligations.DataOfAnEmptyStageIsNeverRead : Prop :=
  ∀ (s u : State) (p : Ports), s.initialised = true → u.initialised = true → SameVisible s.regs u.regs →
    inReady (s.drive p) = inReady (u.drive p) ∧ outValid (s.drive p) = outValid (u.drive p) ∧
    (outValid (s.drive p) = true → outData (s.drive p) = outData (u.drive p)) ∧
    (∃ t v, runPins p s = .next t ∧ runPins p u = .next v ∧ SameVisible t.regs v.regs ∧ t.nets = v.nets) ∧
    (s.nets = u.nets → ∀ i : Index, ∃ t v, exec (.lut i) s = .next t ∧ exec (.lut i) u = .next v ∧ t.nets = v.nets)

/-- ENCODE h is read as its pseudo line, and from the drained state runs PUSH h, IDLE, POP: ENC(h) delivered in the third cycle,
then drained (R80, R81, R84). That a pseudo line is one move in the host's list, unfolded as it runs, is the model's choice: log
entry 8. -/
def Obligations.EncodeLineDeliversTheEncoding : Prop :=
  (∀ x d, readHex32 x = .ok d → wordsOf (beforeComment x) = [x] →
    readLine ("ENCODE ".toList ++ x) = .ok (some (.encode d))) ∧
  (∀ (s : State) (h : DataIn) (rest : List Stimulus), drained s = true → s.script = .encode h :: rest →
    step s = exec (.push h)
      { s with
        ports := ⟨false, true, false, h⟩
        script := .cycle (.ofPins false false false 0) :: .cycle (.ofPins false false true 0) :: rest } ∧
    (s.initialised = true → ∃ t, stepN 3 s = .next t ∧ t.script = rest ∧ drained t = true ∧ t.accepted = s.accepted ++ [h] ∧
      t.delivered = s.delivered ++ [encWord h] ∧ t.observation = s.observation ++ [⟨s.cycle + 2, encWord h⟩]))

/-- DRAIN is read as its pseudo line, runs POP lines only, and ends within 4 cycles drained, with everything that was in flight
delivered (R80, R81, R84, R59). That a pseudo line is one move in the host's list, unfolded as it runs, is the model's choice:
log entry 8. -/
def Obligations.DrainLineEndsDrainedWithinFourCycles : Prop :=
  readLine "DRAIN".toList = .ok (some (.drain false)) ∧
  (∀ (s : State) (seenEmpty : Bool) (rest : List Stimulus), s.script = .drain seenEmpty :: rest →
    step s = exec .pop
      { s with
        ports := ⟨false, false, true, 0⟩
        script := if s.regs.s2Valid then .drain false :: rest else if seenEmpty then rest else .drain true :: rest }) ∧
  (∀ (s : State) (rest : List Stimulus), s.initialised = true → s.script = .drain false :: rest →
    ∃ k t, 2 ≤ k ∧ k ≤ 4 ∧ stepN k s = .next t ∧ t.script = rest ∧ drained t = true ∧ t.cycle = s.cycle + k ∧
      t.accepted = s.accepted ∧ t.delivered = s.delivered ++ queue s ∧ t.ports = ⟨false, false, true, 0⟩)

/-- PUSHW is read as its pseudo line, runs PUSH lines only, takes one cycle below occupancy 2, and with both stages full never
ends (R80, R81, R84, R243). That a pseudo line is one move in the host's list, unfolded as it runs, is the model's choice: log
entry 8. -/
def Obligations.PushwHangsWhenBothStagesAreFull : Prop :=
  (∀ x d, readHex32 x = .ok d → wordsOf (beforeComment x) = [x] →
    readLine ("PUSHW ".toList ++ x) = .ok (some (.pushw d))) ∧
  (∀ (s : State) (h : DataIn) (rest : List Stimulus), s.script = .pushw h :: rest →
    step s = exec (.push h)
      { s with
        ports := ⟨false, true, false, h⟩
        script := if inReady (s.drive ⟨false, true, false, h⟩) then rest else .pushw h :: rest } ∧
    (s.initialised = true → occupancy s < 2 → ∃ t, step s = .next t ∧ t.script = rest ∧ t.accepted = s.accepted ++ [h]) ∧
    (s.initialised = true → occupancy s = 2 → ∀ n : Nat, ∃ t, stepN n s = .next t ∧ t.script = .pushw h :: rest ∧
      t.regs = s.regs ∧ t.accepted = s.accepted ∧ t.delivered = s.delivered ∧
      inReady (t.drive ⟨false, true, false, h⟩) = false))

/-- Each stimulus line drives the pins of its encoding, and a step of it runs its operation on them (R81). -/
def Obligations.StimulusLinesRunTheirOperations : Prop :=
  ∀ (s : State) (h : DataIn) (rest : List Stimulus),
    (s.script = .cycle (.ofPins true false false 0) :: rest →
      step s = exec .reset { s with ports := ⟨true, false, false, 0⟩, script := rest }) ∧
    (s.script = .cycle (.ofPins false false false 0) :: rest →
      step s = exec .idle { s with ports := ⟨false, false, false, 0⟩, script := rest }) ∧
    (s.script = .cycle (.ofPins false false true 0) :: rest →
      step s = exec .pop { s with ports := ⟨false, false, true, 0⟩, script := rest }) ∧
    (s.script = .cycle (.ofPins false true false h) :: rest →
      step s = exec (.push h) { s with ports := ⟨false, true, false, h⟩, script := rest }) ∧
    (s.script = .cycle (.ofPins false true true h) :: rest →
      step s = exec (.pushpop h) { s with ports := ⟨false, true, true, h⟩, script := rest }) ∧
    readLine "RESET".toList = .ok (some (.cycle (.ofPins true false false 0))) ∧
    readLine "IDLE".toList = .ok (some (.cycle (.ofPins false false false 0))) ∧
    readLine "POP".toList = .ok (some (.cycle (.ofPins false false true 0))) ∧
    (∀ x d, readHex32 x = .ok d → wordsOf (beforeComment x) = [x] →
      readLine ("PUSH ".toList ++ x) = .ok (some (.cycle (.ofPins false true false d))) ∧
      readLine ("PUSHPOP ".toList ++ x) = .ok (some (.cycle (.ofPins false true true d))))

/-- A hex literal is read with b[0] first, high nibble first (R82). -/
def Obligations.HexLiteralsListByteZeroFirst : Prop :=
  ∀ bs : List Byte, bs.length = 16 → ∃ d, readHex32 (hexText bs) = .ok d ∧ ∀ i : Fin 16, some (inByte d i) = bs[i.val]?

/-- The script reader refuses an unknown mnemonic, a bad hex32, an unexpected and a missing operand, and then the whole script
(R83). -/
def Obligations.ScriptReaderRefusesBrokenLines : Prop :=
  (∀ line op args, wordsOf (beforeComment line) = op :: args →
    (op ∉ ["RESET".toList, "IDLE".toList, "POP".toList, "PUSH".toList, "PUSHPOP".toList, "PUSHW".toList, "DRAIN".toList,
        "ENCODE".toList] → readLine line = .error .unknownMnemonic) ∧
    (op ∈ ["RESET".toList, "IDLE".toList, "POP".toList] → args ≠ [] → readLine line = .error .unexpectedOperand) ∧
    (op ∈ ["PUSH".toList, "PUSHPOP".toList] → args = [] → readLine line = .error .missingOperand) ∧
    (∀ x, op ∈ ["PUSH".toList, "PUSHPOP".toList, "PUSHW".toList, "ENCODE".toList] → args = [x] →
      (x.length ≠ 32 ∨ ∃ c ∈ x, hexDigit c = none) → readLine line = .error .badHex)) ∧
  (∀ (lines : List (List Char)) (s : State), (∃ line ∈ lines, ∃ e, readLine line = .error e) →
    ∃ e, loadScript lines s = .refused (.badScript e))

/-- Unclean pins, an unclean in_data at a transfer and a ready loop are refused by name; every other drive is sampled and its
cycle runs (R72, R201, R240). That a drive is a move in the host's list, and in which ways out_ready may follow another signal,
is the model's choice: log entries 8, 10 and 15. -/
def Obligations.BoundaryOfTheModelIsRefusedByName : Prop :=
  ∀ (s : State) (d : Drive) (rest : List Stimulus), s.script = .cycle d :: rest →
    (d.rst = .unclean ∨ d.inValid = .unclean → step s = .refused .uncleanControl) ∧
    (d.rst ≠ .unclean → d.inValid ≠ .unclean → d.outReady = .level .unclean → step s = .refused .uncleanControl) ∧
    (d.rst ≠ .unclean → d.inValid ≠ .unclean → d.outReady = .followInReady → step s = .refused .combinationalLoop) ∧
    (∀ r v o, d.rst.bit = some r → d.inValid.bit = some v → d.outReady.bit r v s.regs = .ok o → d.inData = none →
      (inFire (s.drive ⟨r, v, o, 0⟩) = true → step s = .refused .uncleanInData) ∧
      (inFire (s.drive ⟨r, v, o, 0⟩) = false → (s.initialised || r) = true → ∀ x, ∃ t, step s = .next t ∧
        t.regs = stepRegs ⟨r, v, o, x⟩ s.regs ∧ t.accepted = (if r then [] else s.accepted))) ∧
    (∀ r v x, d.rst.bit = some r → d.inValid.bit = some v → d.inData = some x →
      (∀ l o, d.outReady = .level l → l.bit = some o → step s = runPins ⟨r, v, o, x⟩ { s with script := rest }) ∧
      (d.outReady = .followInValid → step s = runPins ⟨r, v, v, x⟩ { s with script := rest }) ∧
      (d.outReady = .followOutValid → step s =
        runPins ⟨r, v, outValid (s.drive ⟨r, v, false, x⟩), x⟩ { s with script := rest }) ∧
      ((s.initialised || r) = true → d.outReady ≠ .level .unclean → d.outReady ≠ .followInReady → ∃ t, step s = .next t))

/-- Before the first reset every cycle but RESET is refused, and RESET starts the run drained (R201, R217, R232). That the state
records whether a RESET has happened, and that a loss of power is a move of the host, is the model's choice: log entries 7 and
14; lanes, lookups and a stopped clock are not refused before the first reset. -/
def Obligations.NoCycleButResetRunsBeforeTheFirstReset : Prop :=
  (∀ (s : State) (h : DataIn), s.initialised = false →
    exec .idle s = .refused .runWithoutReset ∧ exec (.push h) s = .refused .runWithoutReset ∧
    exec .pop s = .refused .runWithoutReset ∧ exec (.pushpop h) s = .refused .runWithoutReset ∧
    ∃ t, exec .reset s = .next t ∧ t.initialised = true ∧ drained t = true) ∧
  (∀ (s : State) (rest : List Stimulus), s.script = .powerLoss :: rest →
    ∃ t, step s = .next t ∧ t.initialised = false ∧ t.script = rest) ∧ State.powerOn.initialised = false

/-- A stopped clock changes nothing, with or without a move of the host (R217). That a stopped clock is a move of the host, and
that an empty list is one, is the model's choice: log entries 14 and 8. -/
def Obligations.StoppedClockHoldsTheState : Prop :=
  (∀ (s : State) (rest : List Stimulus), s.script = .clockStopped :: rest → step s = .next { s with script := rest }) ∧
  (∀ s : State, s.script = [] → step s = .next s)
end

