-- ==== Sys2Proof/Laws/State.lean ====
section
/-! SUPPORT. What each update of the state leaves in each field, so that no later proof unfolds a record update. -/

namespace Sys2Proof.Machine

@[simp] theorem State.drive_regs (s : State) (p : Ports) :
    (s.drive p).regs = s.regs := rfl

@[simp] theorem State.drive_ports (s : State) (p : Ports) :
    (s.drive p).ports = p := rfl

@[simp] theorem State.drive_nets (s : State) (p : Ports) :
    (s.drive p).nets = s.nets := rfl

@[simp] theorem State.drive_initialised (s : State) (p : Ports) :
    (s.drive p).initialised = s.initialised := rfl

@[simp] theorem State.drive_cycle (s : State) (p : Ports) :
    (s.drive p).cycle = s.cycle := rfl

@[simp] theorem State.drive_draws (s : State) (p : Ports) :
    (s.drive p).draws = s.draws := rfl

@[simp] theorem State.drive_script (s : State) (p : Ports) :
    (s.drive p).script = s.script := rfl

@[simp] theorem State.drive_accepted (s : State) (p : Ports) :
    (s.drive p).accepted = s.accepted := rfl

@[simp] theorem State.drive_delivered (s : State) (p : Ports) :
    (s.drive p).delivered = s.delivered := rfl

@[simp] theorem State.drive_observation (s : State) (p : Ports) :
    (s.drive p).observation = s.observation := rfl

@[simp] theorem State.settleLane_regs (s : State) (j : Fin 22) (v : Index) :
    (s.settleLane j v).regs = s.regs := rfl

@[simp] theorem State.settleLane_ports (s : State) (j : Fin 22) (v : Index) :
    (s.settleLane j v).ports = s.ports := rfl

@[simp] theorem State.settleLane_nets (s : State) (j : Fin 22) (v : Index) :
    (s.settleLane j v).nets = { s.nets with idx := s.nets.idx.set j (some v) } := rfl

@[simp] theorem State.settleLane_initialised (s : State) (j : Fin 22) (v : Index) :
    (s.settleLane j v).initialised = s.initialised := rfl

@[simp] theorem State.settleLane_cycle (s : State) (j : Fin 22) (v : Index) :
    (s.settleLane j v).cycle = s.cycle := rfl

@[simp] theorem State.settleLane_draws (s : State) (j : Fin 22) (v : Index) :
    (s.settleLane j v).draws = s.draws := rfl

@[simp] theorem State.settleLane_script (s : State) (j : Fin 22) (v : Index) :
    (s.settleLane j v).script = s.script := rfl

@[simp] theorem State.settleLane_accepted (s : State) (j : Fin 22) (v : Index) :
    (s.settleLane j v).accepted = s.accepted := rfl

@[simp] theorem State.settleLane_delivered (s : State) (j : Fin 22) (v : Index) :
    (s.settleLane j v).delivered = s.delivered := rfl

@[simp] theorem State.settleLane_observation (s : State) (j : Fin 22) (v : Index) :
    (s.settleLane j v).observation = s.observation := rfl

@[simp] theorem State.settleLookup_regs (s : State) (i : Index) :
    (s.settleLookup i).regs = s.regs := rfl

@[simp] theorem State.settleLookup_ports (s : State) (i : Index) :
    (s.settleLookup i).ports = s.ports := rfl

@[simp] theorem State.settleLookup_nets (s : State) (i : Index) :
    (s.settleLookup i).nets = { s.nets with lutOut := some (lut i), ch := lookupCh i s.regs s.nets.ch } := rfl

@[simp] theorem State.settleLookup_initialised (s : State) (i : Index) :
    (s.settleLookup i).initialised = s.initialised := rfl

@[simp] theorem State.settleLookup_cycle (s : State) (i : Index) :
    (s.settleLookup i).cycle = s.cycle := rfl

@[simp] theorem State.settleLookup_draws (s : State) (i : Index) :
    (s.settleLookup i).draws = s.draws := rfl

@[simp] theorem State.settleLookup_script (s : State) (i : Index) :
    (s.settleLookup i).script = s.script := rfl

@[simp] theorem State.settleLookup_accepted (s : State) (i : Index) :
    (s.settleLookup i).accepted = s.accepted := rfl

@[simp] theorem State.settleLookup_delivered (s : State) (i : Index) :
    (s.settleLookup i).delivered = s.delivered := rfl

@[simp] theorem State.settleLookup_observation (s : State) (i : Index) :
    (s.settleLookup i).observation = s.observation := rfl

@[simp] theorem State.edge_regs (s : State) :
    (s.edge).regs = nextRegs s := rfl

@[simp] theorem State.edge_ports (s : State) :
    (s.edge).ports = s.ports := rfl

@[simp] theorem State.edge_nets (s : State) :
    (s.edge).nets = Nets.unsettled := rfl

@[simp] theorem State.edge_initialised (s : State) :
    (s.edge).initialised = (s.initialised || s.ports.rst) := rfl

@[simp] theorem State.edge_cycle (s : State) :
    (s.edge).cycle = s.cycle + 1 := rfl

@[simp] theorem State.edge_draws (s : State) :
    (s.edge).draws = s.draws + 1 := rfl

@[simp] theorem State.edge_script (s : State) :
    (s.edge).script = s.script := rfl

@[simp] theorem State.edge_accepted (s : State) :
    (s.edge).accepted = nextAccepted s := rfl

@[simp] theorem State.edge_delivered (s : State) :
    (s.edge).delivered = nextDelivered s := rfl

@[simp] theorem State.edge_observation (s : State) :
    (s.edge).observation = nextObservation s := rfl

@[simp] theorem State.losePower_regs (s : State) :
    (s.losePower).regs = Regs.powerOn s.draws := rfl

@[simp] theorem State.losePower_ports (s : State) :
    (s.losePower).ports = s.ports := rfl

@[simp] theorem State.losePower_nets (s : State) :
    (s.losePower).nets = Nets.unsettled := rfl

@[simp] theorem State.losePower_initialised (s : State) :
    (s.losePower).initialised = false := rfl

@[simp] theorem State.losePower_cycle (s : State) :
    (s.losePower).cycle = s.cycle := rfl

@[simp] theorem State.losePower_draws (s : State) :
    (s.losePower).draws = s.draws + 1 := rfl

@[simp] theorem State.losePower_script (s : State) :
    (s.losePower).script = s.script := rfl

@[simp] theorem State.losePower_accepted (s : State) :
    (s.losePower).accepted = s.accepted := rfl

@[simp] theorem State.losePower_delivered (s : State) :
    (s.losePower).delivered = s.delivered := rfl

@[simp] theorem State.losePower_observation (s : State) :
    (s.losePower).observation = s.observation := rfl

end Sys2Proof.Machine
end

