-- ==== Sys2Proof/Laws/Ops.lean ====
section
/-! SUPPORT. What each shared operation can do, said once. -/

namespace Sys2Proof.Machine

/-! ### The window extractor and the alphabet, lane by lane -/

@[simp] theorem win_get_0 (d : DataIn) : (win d)[0] = lane0 d := rfl

@[simp] theorem win_get_1 (d : DataIn) : (win d)[1] = lane1 d := rfl

@[simp] theorem win_get_2 (d : DataIn) : (win d)[2] = lane2 d := rfl

@[simp] theorem win_get_3 (d : DataIn) : (win d)[3] = lane3 d := rfl

@[simp] theorem win_get_4 (d : DataIn) : (win d)[4] = lane4 d := rfl

@[simp] theorem win_get_5 (d : DataIn) : (win d)[5] = lane5 d := rfl

@[simp] theorem win_get_6 (d : DataIn) : (win d)[6] = lane6 d := rfl

@[simp] theorem win_get_7 (d : DataIn) : (win d)[7] = lane7 d := rfl

@[simp] theorem win_get_8 (d : DataIn) : (win d)[8] = lane8 d := rfl

@[simp] theorem win_get_9 (d : DataIn) : (win d)[9] = lane9 d := rfl

@[simp] theorem win_get_10 (d : DataIn) : (win d)[10] = lane10 d := rfl

@[simp] theorem win_get_11 (d : DataIn) : (win d)[11] = lane11 d := rfl

@[simp] theorem win_get_12 (d : DataIn) : (win d)[12] = lane12 d := rfl

@[simp] theorem win_get_13 (d : DataIn) : (win d)[13] = lane13 d := rfl

@[simp] theorem win_get_14 (d : DataIn) : (win d)[14] = lane14 d := rfl

@[simp] theorem win_get_15 (d : DataIn) : (win d)[15] = lane15 d := rfl

@[simp] theorem win_get_16 (d : DataIn) : (win d)[16] = lane16 d := rfl

@[simp] theorem win_get_17 (d : DataIn) : (win d)[17] = lane17 d := rfl

@[simp] theorem win_get_18 (d : DataIn) : (win d)[18] = lane18 d := rfl

@[simp] theorem win_get_19 (d : DataIn) : (win d)[19] = lane19 d := rfl

@[simp] theorem win_get_20 (d : DataIn) : (win d)[20] = lane20 d := rfl

@[simp] theorem win_get_21 (d : DataIn) : (win d)[21] = lane21 d := rfl

theorem eachLane_get {α : Type} (f : Fin 22 → α) (j : Nat) (h : j < 22) : (eachLane f)[j] = f ⟨j, h⟩ := by
  unfold eachLane
  interval_cases j <;> rfl

@[simp] theorem lutAll_get (v : Indices) (j : Nat) (h : j < 22) : (lutAll v)[j] = lut v[j] :=
  eachLane_get _ j h

@[simp] theorem lookupCh_get (i : Index) (r : Regs) (ch : Vector (Option CharCode) 22) (j : Nat) (h : j < 22) :
    (lookupCh i r ch)[j] = if r.s1Valid = true ∧ r.s1Idx[j] = i then some (lut i) else ch[j] :=
  eachLane_get _ j h

theorem enc_get (d : DataIn) (j : Nat) (h : j < 22) : (enc d)[j] = lut (win d)[j] :=
  lutAll_get _ j h

theorem unsettled_idx_get (j : Nat) (h : j < 22) : Nets.unsettled.idx[j] = none := by
  simp [Nets.unsettled]

theorem unsettled_ch_get (j : Nat) (h : j < 22) : Nets.unsettled.ch[j] = none := by
  simp [Nets.unsettled]

/-- Nets with no value hold nothing that is wrong. -/
theorem netsInv_of_unsettled (s : State) (h : s.nets = Nets.unsettled) : NetsInv s where
  idx j v hv := by
    rw [h, Fin.getElem_fin, unsettled_idx_get] at hv
    cases hv
  ch j c hc := by
    rw [h, Fin.getElem_fin, unsettled_ch_get] at hc
    cases hc
  lutOut c hc := by
    rw [h] at hc
    cases hc

/-- While s1_valid = 0 a lookup drives no lane: s1_idx is not read then (10_state R41). -/
theorem lookupCh_of_s1_empty (i : Index) (r : Regs) (ch : Vector (Option CharCode) 22) (h : r.s1Valid = false) :
    lookupCh i r ch = ch := by
  ext j hj
  simp [h]

/-- Every code of the alphabet lies in the set of 41_alphabet_lut R145. -/
theorem inAlphabet_lut (i : Index) : inAlphabet (lut i) := by
  revert i
  decide

/-! ### One clock cycle -/

/-- Where a clock cycle ends in a next state, and in which. -/
theorem clockCycle_eq_next (s t : State) :
    clockCycle s = .next t ↔ (s.initialised || s.ports.rst) = true ∧ t = s.edge := by
  unfold clockCycle
  split
  · rename_i h
    exact ⟨fun e => ⟨h, by injection e with e; exact e.symm⟩, fun e => by rw [e.2]⟩
  · rename_i h
    exact ⟨fun e => (by cases e), fun e => absurd e.1 h⟩

theorem clockCycle_of_initialised (s : State) (h : s.initialised = true) : clockCycle s = .next s.edge :=
  if_pos (by simp [h])

theorem clockCycle_of_rst (s : State) (h : s.ports.rst = true) : clockCycle s = .next s.edge :=
  if_pos (by simp [h])

/-- The registers after the edge are those of the step function in one piece (42_stream_ops R162). -/
theorem nextRegs_eq (s : State) : nextRegs s = stepRegs s.ports s.regs := by
  simp only [nextRegs, stepRegs]
  by_cases h : s.ports.rst = true
  · simp [h]
  · simp [h, inFire, inReady, advances]

/-- An advance, an input transfer and an output transfer need rst = 0. -/
theorem no_transfer_of_rst (s : State) (h : s.ports.rst = true) :
    inFire s = false ∧ outFire s = false ∧ advances s = false := by
  simp [inFire, inReady, outFire, outValid, advances, h]

/-- What the host takes at an output transfer is s2_char (42_stream_ops R163). -/
theorem outData_of_outFire (s : State) (h : outFire s = true) : outData s = packChars s.regs.s2Char := by
  have hv : outValid s = true := by
    simp only [outFire, Bool.and_eq_true] at h
    exact h.1
  simp [outData, hv]

/-- The frame of a clock cycle on the ports `p` that ends in a next state. -/
theorem cycleFrame_edge (s : State) (p : Ports) (h : (s.initialised || p.rst) = true) :
    CycleFrame s ((s.drive p).edge) p (inFire (s.drive p)) (outFire (s.drive p)) where
  ports := rfl
  nets := rfl
  initialised := h
  cycle := rfl
  draws := rfl
  script := rfl
  accepted := rfl
  delivered := by
    by_cases hf : outFire (s.drive p) = true
    · simp [nextDelivered, hf, outData_of_outFire _ hf]
    · simp [nextDelivered, hf]
  observation := by
    by_cases hf : outFire (s.drive p) = true
    · simp [nextObservation, hf, outData_of_outFire _ hf]
    · simp [nextObservation, hf]

/-- A clock cycle on the ports `p` completes where it may run, with the registers of the step function and its frame. -/
theorem clockCycle_drive (s : State) (p : Ports) (h : (s.initialised || p.rst) = true) :
    ∃ t, clockCycle (s.drive p) = .next t ∧ t.regs = stepRegs p s.regs ∧
      CycleFrame s t p (inFire (s.drive p)) (outFire (s.drive p)) :=
  ⟨_, if_pos h, nextRegs_eq (s.drive p), cycleFrame_edge s p h⟩

/-- The bits of the control vector of the pins `p` (30_encoding R70). -/
theorem ctrl_bits (p : Ports) :
    p.ctrl.getLsbD 2 = p.rst ∧ p.ctrl.getLsbD 1 = p.inValid ∧ p.ctrl.getLsbD 0 = p.outReady := by
  have h : ∀ r v o : Bool,
      (BitVec.ofBool r ++ BitVec.ofBool v ++ BitVec.ofBool o).getLsbD 2 = r ∧
      (BitVec.ofBool r ++ BitVec.ofBool v ++ BitVec.ofBool o).getLsbD 1 = v ∧
      (BitVec.ofBool r ++ BitVec.ofBool v ++ BitVec.ofBool o).getLsbD 0 = o := by decide
  exact h _ _ _

/-- The operation a control vector selects is one clock cycle on its pins (30_encoding R71). -/
theorem runPins_eq (p : Ports) (s : State) : runPins p s = clockCycle (s.drive p) := by
  obtain ⟨r, v, o, d⟩ := p
  obtain ⟨hr, hv, ho⟩ := ctrl_bits ⟨r, v, o, d⟩
  simp only [runPins, decodeCtrl, hr, hv, ho]
  cases r <;> cases v <;> cases o <;> rfl

/-- A cycle that ends in a next state leaves no net with a value (10_state R25). -/
theorem runPins_nets (p : Ports) (s t : State) (h : runPins p s = .next t) : t.nets = Nets.unsettled := by
  rw [runPins_eq] at h
  rw [((clockCycle_eq_next _ _).1 h).2]
  rfl

/-- A cycle does not read the nets it begins with (10_state R25). -/
theorem runPins_of_nets (p : Ports) (s : State) (n : Nets) : runPins p { s with nets := n } = runPins p s := by
  rw [runPins_eq, runPins_eq]
  rfl

/-! ### The lines of a stimulus program -/

/-- Clean pins are sampled as they are driven. -/
@[simp] theorem sample_ofPins (r v o : Bool) (d : DataIn) (s : State) : sample (.ofPins r v o d) s = .ok ⟨r, v, o, d⟩ := by
  cases r <;> cases v <;> cases o <;> rfl

/-- A line on clean pins is one clock cycle on them (30_encoding R80, R81). -/
theorem runDrive_ofPins (r v o : Bool) (d : DataIn) (s : State) :
    runDrive (.ofPins r v o d) s = runPins ⟨r, v, o, d⟩ s := by
  simp only [runDrive, sample_ofPins]
  rfl

@[simp] theorem runDrive_lineReset (s : State) :
    runDrive lineReset s = exec .reset { s with ports := ⟨true, false, false, 0⟩ } :=
  (runDrive_ofPins _ _ _ _ s).trans (runPins_eq _ _)

@[simp] theorem runDrive_lineIdle (s : State) :
    runDrive lineIdle s = exec .idle { s with ports := ⟨false, false, false, 0⟩ } :=
  (runDrive_ofPins _ _ _ _ s).trans (runPins_eq _ _)

@[simp] theorem runDrive_linePop (s : State) :
    runDrive linePop s = exec .pop { s with ports := ⟨false, false, true, 0⟩ } :=
  (runDrive_ofPins _ _ _ _ s).trans (runPins_eq _ _)

@[simp] theorem runDrive_linePush (h : DataIn) (s : State) :
    runDrive (linePush h) s = exec (.push h) { s with ports := ⟨false, true, false, h⟩ } :=
  (runDrive_ofPins _ _ _ _ s).trans (runPins_eq _ _)

@[simp] theorem runDrive_linePushpop (h : DataIn) (s : State) :
    runDrive (linePushpop h) s = exec (.pushpop h) { s with ports := ⟨false, true, true, h⟩ } :=
  (runDrive_ofPins _ _ _ _ s).trans (runPins_eq _ _)

/-- One cycle of PUSHW h is the line PUSH h (30_encoding R84). -/
theorem runPushw_eq (h : DataIn) (rest : List Stimulus) (s : State) :
    runPushw h rest s = exec (.push h) { s with ports := ⟨false, true, false, h⟩, script := pushwRest h rest s } :=
  runDrive_linePush _ _

/-- One cycle of DRAIN is the line POP, in_data 0 included (30_encoding R81, R84). -/
theorem runDrain_eq (e : Bool) (rest : List Stimulus) (s : State) :
    runDrain e rest s = exec .pop { s with ports := ⟨false, false, true, 0⟩, script := drainRest e rest s } :=
  runDrive_linePop _

/-! ### One operation, one step -/

/-- What one operation does when it ends in a next state: a clock cycle on some ports, the window net of one lane settled, or one
lookup settled. -/
theorem exec_cases (i : Instr) (s t : State) (h : exec i s = .next t) :
    (∃ p, (s.initialised || p.rst) = true ∧ t = (s.drive p).edge) ∨
    (∃ j : Fin 22, t = s.settleLane j (win s.ports.inData)[j]) ∨ (∃ x : Index, t = s.settleLookup x) := by
  cases i
  case reset => exact .inl ⟨_, ((clockCycle_eq_next _ _).1 h).imp_left id⟩
  case idle => exact .inl ⟨_, ((clockCycle_eq_next _ _).1 h).imp_left id⟩
  case push => exact .inl ⟨_, ((clockCycle_eq_next _ _).1 h).imp_left id⟩
  case pop => exact .inl ⟨_, ((clockCycle_eq_next _ _).1 h).imp_left id⟩
  case pushpop => exact .inl ⟨_, ((clockCycle_eq_next _ _).1 h).imp_left id⟩
  case lut x => exact .inr (.inr ⟨x, by cases h; rfl⟩)
  case lane0 => exact .inr (.inl ⟨0, by cases h; rfl⟩)
  case lane1 => exact .inr (.inl ⟨1, by cases h; rfl⟩)
  case lane2 => exact .inr (.inl ⟨2, by cases h; rfl⟩)
  case lane3 => exact .inr (.inl ⟨3, by cases h; rfl⟩)
  case lane4 => exact .inr (.inl ⟨4, by cases h; rfl⟩)
  case lane5 => exact .inr (.inl ⟨5, by cases h; rfl⟩)
  case lane6 => exact .inr (.inl ⟨6, by cases h; rfl⟩)
  case lane7 => exact .inr (.inl ⟨7, by cases h; rfl⟩)
  case lane8 => exact .inr (.inl ⟨8, by cases h; rfl⟩)
  case lane9 => exact .inr (.inl ⟨9, by cases h; rfl⟩)
  case lane10 => exact .inr (.inl ⟨10, by cases h; rfl⟩)
  case lane11 => exact .inr (.inl ⟨11, by cases h; rfl⟩)
  case lane12 => exact .inr (.inl ⟨12, by cases h; rfl⟩)
  case lane13 => exact .inr (.inl ⟨13, by cases h; rfl⟩)
  case lane14 => exact .inr (.inl ⟨14, by cases h; rfl⟩)
  case lane15 => exact .inr (.inl ⟨15, by cases h; rfl⟩)
  case lane16 => exact .inr (.inl ⟨16, by cases h; rfl⟩)
  case lane17 => exact .inr (.inl ⟨17, by cases h; rfl⟩)
  case lane18 => exact .inr (.inl ⟨18, by cases h; rfl⟩)
  case lane19 => exact .inr (.inl ⟨19, by cases h; rfl⟩)
  case lane20 => exact .inr (.inl ⟨20, by cases h; rfl⟩)
  case lane21 => exact .inr (.inl ⟨21, by cases h; rfl⟩)

/-- What one encoded operation does when it ends in a next state. -/
theorem runCode_cases (w : Code) (s t : State) (h : runCode w s = .next t) :
    ∃ i, decode w = .ok i ∧ exec i s = .next t := by
  unfold runCode at h
  split at h
  · exact ⟨_, by assumption, h⟩
  · cases h

/-- What one cycle on driven pins does when it ends in a next state. -/
theorem runDrive_cases (d : Drive) (s t : State) (h : runDrive d s = .next t) :
    ∃ i p, exec i (s.drive p) = .next t := by
  unfold runDrive at h
  split at h
  · obtain ⟨i, -, hi⟩ := runCode_cases _ _ _ h
    exact ⟨i, _, hi⟩
  · cases h

/-- What one step can do when it ends in a next state: nothing at all; a stopped clock; a loss of power; or one operation, on the
same registers and counts. -/
theorem step_cases (s t : State) (h : step s = .next t) :
    t = s ∨ (∃ r, t = { s with script := r }) ∨ (∃ r, t = { s.losePower with script := r }) ∨
    (∃ i p r, exec i { s with ports := p, script := r } = .next t) := by
  unfold step runNext at h
  split at h
  · cases h
    exact .inl rfl
  · rename_i x rest _
    cases x with
    | cycle d =>
      obtain ⟨i, p, hi⟩ := runDrive_cases _ _ _ h
      exact .inr (.inr (.inr ⟨i, p, _, hi⟩))
    | evaluate w =>
      obtain ⟨i, -, hi⟩ := runCode_cases _ _ _ h
      exact .inr (.inr (.inr ⟨i, s.ports, _, hi⟩))
    | pushw d =>
      obtain ⟨i, p, hi⟩ := runDrive_cases (linePush d) _ _ h
      exact .inr (.inr (.inr ⟨i, p, _, hi⟩))
    | drain e =>
      obtain ⟨i, p, hi⟩ := runDrive_cases linePop _ _ h
      exact .inr (.inr (.inr ⟨i, p, _, hi⟩))
    | encode d =>
      simp only [runStimulus, runEncode] at h
      split at h
      · obtain ⟨i, p, hi⟩ := runDrive_cases _ _ _ h
        exact .inr (.inr (.inr ⟨i, p, _, hi⟩))
      · cases h
    | clockStopped =>
      cases h
      exact .inr (.inl ⟨_, rfl⟩)
    | powerLoss =>
      cases h
      exact .inr (.inr (.inl ⟨_, rfl⟩))

end Sys2Proof.Machine
end

