-- ==== Sys2Proof/Laws/PerInstr.lean ====
section
/-! SUPPORT. Statements made per operation: the encoded form of each lies in its own row of the opcode table. -/

namespace Sys2Proof.Laws

/-- The table has a row with the operation's mnemonic that takes its encoded form. -/
def EncodesInRow.Statement (i : Instr) : Prop :=
  ∃ r ∈ opcodeTable, r.mnemonic = i.mnemonic ∧ r.takes (encode i) = true

theorem EncodesInRow.reset : EncodesInRow.Statement .reset :=
  ⟨⟨"RESET", .ctrl, 0b100, 0b100⟩, by decide, rfl, by decide⟩

theorem EncodesInRow.idle : EncodesInRow.Statement .idle :=
  ⟨⟨"IDLE", .ctrl, 0b000, 0b111⟩, by decide, rfl, by decide⟩

theorem EncodesInRow.push (h : DataIn) : EncodesInRow.Statement (.push h) :=
  ⟨⟨"PUSH", .ctrl, 0b010, 0b111⟩, by decide, rfl, rfl⟩

theorem EncodesInRow.pop : EncodesInRow.Statement .pop :=
  ⟨⟨"POP", .ctrl, 0b001, 0b111⟩, by decide, rfl, by decide⟩

theorem EncodesInRow.pushpop (h : DataIn) : EncodesInRow.Statement (.pushpop h) :=
  ⟨⟨"PUSHPOP", .ctrl, 0b011, 0b111⟩, by decide, rfl, rfl⟩

theorem EncodesInRow.lane0 : EncodesInRow.Statement .lane0 :=
  ⟨⟨"LANE0", .lane, 0, 31⟩, by decide, rfl, by decide⟩

theorem EncodesInRow.lane1 : EncodesInRow.Statement .lane1 :=
  ⟨⟨"LANE1", .lane, 1, 31⟩, by decide, rfl, by decide⟩

theorem EncodesInRow.lane2 : EncodesInRow.Statement .lane2 :=
  ⟨⟨"LANE2", .lane, 2, 31⟩, by decide, rfl, by decide⟩

theorem EncodesInRow.lane3 : EncodesInRow.Statement .lane3 :=
  ⟨⟨"LANE3", .lane, 3, 31⟩, by decide, rfl, by decide⟩

theorem EncodesInRow.lane4 : EncodesInRow.Statement .lane4 :=
  ⟨⟨"LANE4", .lane, 4, 31⟩, by decide, rfl, by decide⟩

theorem EncodesInRow.lane5 : EncodesInRow.Statement .lane5 :=
  ⟨⟨"LANE5", .lane, 5, 31⟩, by decide, rfl, by decide⟩

theorem EncodesInRow.lane6 : EncodesInRow.Statement .lane6 :=
  ⟨⟨"LANE6", .lane, 6, 31⟩, by decide, rfl, by decide⟩

theorem EncodesInRow.lane7 : EncodesInRow.Statement .lane7 :=
  ⟨⟨"LANE7", .lane, 7, 31⟩, by decide, rfl, by decide⟩

theorem EncodesInRow.lane8 : EncodesInRow.Statement .lane8 :=
  ⟨⟨"LANE8", .lane, 8, 31⟩, by decide, rfl, by decide⟩

theorem EncodesInRow.lane9 : EncodesInRow.Statement .lane9 :=
  ⟨⟨"LANE9", .lane, 9, 31⟩, by decide, rfl, by decide⟩

theorem EncodesInRow.lane10 : EncodesInRow.Statement .lane10 :=
  ⟨⟨"LANE10", .lane, 10, 31⟩, by decide, rfl, by decide⟩

theorem EncodesInRow.lane11 : EncodesInRow.Statement .lane11 :=
  ⟨⟨"LANE11", .lane, 11, 31⟩, by decide, rfl, by decide⟩

theorem EncodesInRow.lane12 : EncodesInRow.Statement .lane12 :=
  ⟨⟨"LANE12", .lane, 12, 31⟩, by decide, rfl, by decide⟩

theorem EncodesInRow.lane13 : EncodesInRow.Statement .lane13 :=
  ⟨⟨"LANE13", .lane, 13, 31⟩, by decide, rfl, by decide⟩

theorem EncodesInRow.lane14 : EncodesInRow.Statement .lane14 :=
  ⟨⟨"LANE14", .lane, 14, 31⟩, by decide, rfl, by decide⟩

theorem EncodesInRow.lane15 : EncodesInRow.Statement .lane15 :=
  ⟨⟨"LANE15", .lane, 15, 31⟩, by decide, rfl, by decide⟩

theorem EncodesInRow.lane16 : EncodesInRow.Statement .lane16 :=
  ⟨⟨"LANE16", .lane, 16, 31⟩, by decide, rfl, by decide⟩

theorem EncodesInRow.lane17 : EncodesInRow.Statement .lane17 :=
  ⟨⟨"LANE17", .lane, 17, 31⟩, by decide, rfl, by decide⟩

theorem EncodesInRow.lane18 : EncodesInRow.Statement .lane18 :=
  ⟨⟨"LANE18", .lane, 18, 31⟩, by decide, rfl, by decide⟩

theorem EncodesInRow.lane19 : EncodesInRow.Statement .lane19 :=
  ⟨⟨"LANE19", .lane, 19, 31⟩, by decide, rfl, by decide⟩

theorem EncodesInRow.lane20 : EncodesInRow.Statement .lane20 :=
  ⟨⟨"LANE20", .lane, 20, 31⟩, by decide, rfl, by decide⟩

theorem EncodesInRow.lane21 : EncodesInRow.Statement .lane21 :=
  ⟨⟨"LANE21", .lane, 21, 31⟩, by decide, rfl, by decide⟩

theorem EncodesInRow.lut (i : Index) : EncodesInRow.Statement (.lut i) :=
  ⟨⟨"LUT", .index, 0, 0⟩, by decide, rfl, by simp [encode, OpRow.takes, Code.bits]⟩

end Sys2Proof.Laws
end

