-- ==== Sys2Proof/Tests/Slice0.lean ====
section
/-! SUPPORT. The model's own tests: well-formedness, decoding of words written out from the spec, worked examples of the spec, one
step at a time, and for each statement with hypotheses a witness that meets them. -/

namespace Sys2Proof.Tests

open Sys2Proof.Machine

/-! ### Small states -/

/-- The state after reset with the given stages filled: S1 with b[i] = 0xF0 + i, S2 with b[i] = i. -/
def filled (s1 s2 : Bool) : State :=
  { State.reset with
    regs := { s1Valid := s1, s1Idx := win exampleHigh, s2Valid := s2, s2Char := enc exampleUp }
    accepted := (if s2 then [exampleUp] else []) ++ (if s1 then [exampleHigh] else []) }

/-- The same stages filled with other data. -/
def otherData (s1 s2 : Bool) : State :=
  { State.reset with regs := { s1Valid := s1, s1Idx := win exampleUp, s2Valid := s2, s2Char := enc exampleHigh } }

/-- A drained state in which one word, `d`, has been accepted and delivered. -/
def afterPop (d : DataIn) : State := { State.reset with accepted := [d], delivered := [encWord d] }

/-- Clean pins with rst = 0. -/
def pins (inValid outReady : Bool) (d : DataIn) : Ports := { rst := false, inValid := inValid, outReady := outReady, inData := d }

/-- The state a step or an operation ends in, or the state itself where it does not end in one. -/
def after (s : State) (o : Host.Outcome State Fault Refusal) : State :=
  match o with
  | .next t => t
  | _ => s

/-- The codes of a text. -/
def codes (s : String) : List Nat := s.toList.map Char.toNat

/-! ### Well-formedness (30_encoding R76) -/

theorem test_lane_21_is_well_formed : (Code.lane 21).wellFormed = true := by decide

theorem test_lane_22_is_ill_formed : (Code.lane 22).wellFormed = false := by decide

theorem test_word_of_no_format_is_ill_formed : (Code.unknown 8 200).wellFormed = false := by decide

/-! ### Decoding, the words written out from the spec -/

/-- 30_encoding R71: CTRL. -/
theorem test_decode_ctrl :
    decode (.ctrl 0b100 0) = .ok .reset ∧ decode (.ctrl 0b101 0) = .ok .reset ∧ decode (.ctrl 0b110 0) = .ok .reset ∧
    decode (.ctrl 0b111 0) = .ok .reset ∧ decode (.ctrl 0b000 7) = .ok .idle ∧ decode (.ctrl 0b010 7) = .ok (.push 7) ∧
    decode (.ctrl 0b001 7) = .ok .pop ∧ decode (.ctrl 0b011 7) = .ok (.pushpop 7) := by decide

/-- 30_encoding R75 and the encoding lines of 40_window_extract R100 to R121: LANE. -/
theorem test_decode_lane_low :
    decode (.lane 0b00000) = .ok .lane0 ∧
    decode (.lane 0b00001) = .ok .lane1 ∧
    decode (.lane 0b00010) = .ok .lane2 ∧
    decode (.lane 0b00011) = .ok .lane3 ∧
    decode (.lane 0b00100) = .ok .lane4 ∧
    decode (.lane 0b00101) = .ok .lane5 ∧
    decode (.lane 0b00110) = .ok .lane6 ∧
    decode (.lane 0b00111) = .ok .lane7 ∧
    decode (.lane 0b01000) = .ok .lane8 ∧
    decode (.lane 0b01001) = .ok .lane9 ∧
    decode (.lane 0b01010) = .ok .lane10 := by decide

/-- 40_window_extract R111 to R121: LANE. -/
theorem test_decode_lane_high :
    decode (.lane 0b01011) = .ok .lane11 ∧
    decode (.lane 0b01100) = .ok .lane12 ∧
    decode (.lane 0b01101) = .ok .lane13 ∧
    decode (.lane 0b01110) = .ok .lane14 ∧
    decode (.lane 0b01111) = .ok .lane15 ∧
    decode (.lane 0b10000) = .ok .lane16 ∧
    decode (.lane 0b10001) = .ok .lane17 ∧
    decode (.lane 0b10010) = .ok .lane18 ∧
    decode (.lane 0b10011) = .ok .lane19 ∧
    decode (.lane 0b10100) = .ok .lane20 ∧
    decode (.lane 0b10101) = .ok .lane21 := by decide

/-- 30_encoding R76: no lane 22 or 31. -/
theorem test_decode_no_lane :
    decode (.lane 0b10110) = .error (.noSuchLane 22) ∧ decode (.lane 0b11111) = .error (.noSuchLane 31) := by decide

/-- 30_encoding R79: INDEX. -/
theorem test_decode_index : decode (.index 0b111111) = .ok (.lut 63) ∧ decode (.index 0) = .ok (.lut 0) := by decide

/-- Bare table words: by width, and, for a whole byte, by the table's match words. -/
theorem test_table_words :
    decodeTableWord 3 5 = some .reset ∧ decodeTableWord 5 5 = some .lane5 ∧ decodeTableWord 6 5 = some (.lut 5) ∧
    decodeTableWord 8 4 = some .reset ∧ decodeTableWord 8 3 = some (.pushpop 0) ∧ decodeTableWord 8 21 = some .lane21 ∧
    decodeTableWord 5 22 = none ∧ decodeTableWord 8 64 = none := by decide

/-- The opcode table has 28 rows, and no mnemonic twice. -/
theorem test_table_rows : opcodeTable.length = 28 ∧ (opcodeTable.map OpRow.mnemonic).Nodup := by decide

/-! ### Worked examples and vectors (95_test_vectors sections 2 and 3; 41_alphabet_lut R140) -/

/-- Section 2, case "all zero". -/
theorem test_encode_all_zero : (enc 0x00000000000000000000000000000000).toList.map BitVec.toNat = codes "AAAAAAAAAAAAAAAAAAAAAA" := by decide

/-- Section 2, case "all 0xFF". -/
theorem test_encode_all_ones : (enc 0xFFFFFFFFFFFFFFFFFFFFFFFFFFFFFFFF).toList.map BitVec.toNat = codes "---------------------w" := by decide

/-- Section 2, case "b[i] = i". -/
theorem test_encode_counting : (enc 0x0F0E0D0C0B0A09080706050403020100).toList.map BitVec.toNat = codes "AAECAwQFBgcICQoLDA0ODw" := by decide

/-- Section 2, case "b[i] = 0xF0 + i". -/
theorem test_encode_counting_high : (enc 0xFFFEFDFCFBFAF9F8F7F6F5F4F3F2F1F0).toList.map BitVec.toNat = codes "8PHy8-T19vf4_fr7-P3_-w" := by decide

/-- Section 2, case "FB EF BE repeated". -/
theorem test_encode_index_62 : (enc 0xFBBEEFFBBEEFFBBEEFFBBEEFFBBEEFFB).toList.map BitVec.toNat = codes "_____________________w" := by decide

/-- Section 2, case "random 4". -/
theorem test_encode_random_4 : (enc 0xCDF59DCD80F0E93E75F648F0DB341942).toList.map BitVec.toNat = codes "Qhk02-BI9nU_6fCAzZ31zQ" := by decide

/-- Section 3.1: each lane's own bits set give 63 there (48 in lane 21). -/
theorem test_lane_isolation :
    (win 0x000000000000000000000000000000FC)[0] = 63 ∧
    (win 0x0000000000000000000000000000F003)[1] = 63 ∧
    (win 0x00000000000000000000000000C00F00)[2] = 63 ∧
    (win 0x000000000000000000000000003F0000)[3] = 63 ∧
    (win 0x000000000000000000000000FC000000)[4] = 63 ∧
    (win 0x0000000000000000000000F003000000)[5] = 63 ∧
    (win 0x00000000000000000000C00F00000000)[6] = 63 ∧
    (win 0x000000000000000000003F0000000000)[7] = 63 ∧
    (win 0x000000000000000000FC000000000000)[8] = 63 ∧
    (win 0x0000000000000000F003000000000000)[9] = 63 ∧
    (win 0x00000000000000C00F00000000000000)[10] = 63 ∧
    (win 0x000000000000003F0000000000000000)[11] = 63 ∧
    (win 0x000000000000FC000000000000000000)[12] = 63 ∧
    (win 0x0000000000F003000000000000000000)[13] = 63 ∧
    (win 0x00000000C00F00000000000000000000)[14] = 63 ∧
    (win 0x000000003F0000000000000000000000)[15] = 63 ∧
    (win 0x000000FC000000000000000000000000)[16] = 63 ∧
    (win 0x0000F003000000000000000000000000)[17] = 63 ∧
    (win 0x00C00F00000000000000000000000000)[18] = 63 ∧
    (win 0x003F0000000000000000000000000000)[19] = 63 ∧
    (win 0xFC000000000000000000000000000000)[20] = 63 ∧
    (win 0x03000000000000000000000000000000)[21] = 48 := by decide

/-- 41_alphabet_lut R140, section 3.4: the boundaries of the alphabet. -/
theorem test_lut_boundaries :
    lut 0 = 0x41 ∧ lut 1 = 0x42 ∧ lut 25 = 0x5A ∧ lut 26 = 0x61 ∧ lut 51 = 0x7A ∧ lut 52 = 0x30 ∧ lut 61 = 0x39 ∧
    lut 62 = 0x5F ∧ lut 63 = 0x2D := by decide

/-- Section 3.3: the tail lane. -/
theorem test_tail_characters :
    (enc 0)[21] = 0x41 ∧ (enc (1 <<< 120))[21] = 0x51 ∧ (enc (2 <<< 120))[21] = 0x67 ∧ (enc (3 <<< 120))[21] = 0x77 := by decide

/-! ### One operation (95_test_vectors section 5) -/

/-- One row of the table of section 5: stages and controls, then outputs, transfers, advance and the next valid bits. -/
def rowHolds (r : Bool × Bool × Bool × Bool × Bool × Bool × Bool × Bool × Bool × Bool × Bool) : Bool :=
  let (s1, s2, v, o, ready, valid, inX, outX, adv, n1, n2) := r
  let s := (filled s1 s2).drive (pins v o 0)
  let t := after s (runPins (pins v o 0) (filled s1 s2))
  inReady s == ready && outValid s == valid && inFire s == inX && outFire s == outX && advances s == adv &&
  t.regs.s1Valid == n1 && t.regs.s2Valid == n2

/-- Section 5, S1 empty. -/
theorem test_table_s1_empty :
    [
      (false, false, false, false, true, false, false, false, false, false, false),
      (false, false, false, true, true, false, false, false, false, false, false),
      (false, false, true, false, true, false, true, false, false, true, false),
      (false, false, true, true, true, false, true, false, false, true, false),
      (false, true, false, false, true, true, false, false, false, false, true),
      (false, true, false, true, true, true, false, true, false, false, false),
      (false, true, true, false, true, true, true, false, false, true, true),
      (false, true, true, true, true, true, true, true, false, true, false)].all rowHolds = true := by decide

/-- Section 5, S1 full. -/
theorem test_table_s1_full :
    [
      (true, false, false, false, true, false, false, false, true, false, true),
      (true, false, false, true, true, false, false, false, true, false, true),
      (true, false, true, false, true, false, true, false, true, true, true),
      (true, false, true, true, true, false, true, false, true, true, true),
      (true, true, false, false, false, true, false, false, false, true, true),
      (true, true, false, true, true, true, false, true, true, false, true),
      (true, true, true, false, false, true, false, false, false, true, true),
      (true, true, true, true, true, true, true, true, true, true, true)].all rowHolds = true := by decide

/-- Section 5: RESET empties both stages and transfers nothing. -/
theorem test_reset_clears :
    (after State.reset (exec .reset (filled true true))).regs.s1Valid = false ∧
    (after State.reset (exec .reset (filled true true))).regs.s2Valid = false ∧
    (after State.reset (exec .reset (filled true true))).observation = [] := by decide

/-- Section 5, "Data effects": an input transfer writes WIN(in_data), an advance LUT(s1_idx). -/
theorem test_push_moves_data :
    (after State.reset (exec (.push exampleUp) (filled true false))).regs.s1Idx = win exampleUp ∧
    (after State.reset (exec (.push exampleUp) (filled true false))).regs.s2Char.toList.map BitVec.toNat =
      codes "8PHy8-T19vf4_fr7-P3_-w" := by decide

/-- A POP of a full block delivers ENC(b[i] = i), cycle 1, and offers S1's word next (program P2, cycles 4 and 5). -/
theorem test_pop_delivers :
    (after State.reset (exec .pop (filled true true))).observation = [⟨1, encWord exampleUp⟩] ∧
    (after State.reset (exec .pop (filled true true))).regs.s2Char = enc exampleHigh := by decide

/-- 40_window_extract R105 (worked example, b[i] = 0xF0 + i): lane 5 alone settles idx[5] = 63, and no other net. -/
theorem test_lane5_settles :
    (after State.reset (exec .lane5 (State.reset.drive (pins false false exampleHigh)))).nets.idx[5] = some 63 ∧
    (after State.reset (exec .lane5 (State.reset.drive (pins false false exampleHigh)))).nets.idx[4] = none := by decide

/-- 41_alphabet_lut R140 (worked example): LUT(62) = 0x5F, in the lanes whose index is 62 (lane 12 of b[i] = 0xF0 + i). -/
theorem test_lut_62 :
    (after State.reset (exec (.lut 62) (filled true false))).nets.lutOut = some 0x5F ∧
    (after State.reset (exec (.lut 62) (filled true false))).nets.ch[12] = some 0x5F ∧
    (after State.reset (exec (.lut 62) (filled true false))).nets.ch[0] = none := by decide

/-- 10_state R41: while s1_valid = 0 a lookup reads no s1_idx and drives no lane, though it has its own result. -/
theorem test_lut_of_empty_s1 :
    (after State.reset (exec (.lut 62) (filled false true))).nets.ch = Nets.unsettled.ch ∧
    (after State.reset (exec (.lut 62) (filled false true))).nets.lutOut = some 0x5F := by decide

/-- 10_state R25: what a lane or a lookup settled is gone after the cycle. -/
theorem test_nets_do_not_persist :
    (after State.reset (exec .idle (after State.reset (exec (.lut 62) (filled true false))))).nets = Nets.unsettled ∧
    (after State.reset (exec .idle (after State.reset (exec .lane5 State.reset)))).nets = Nets.unsettled := by decide

/-! ### One step, and the reader (30_encoding R80 to R84) -/

/-- The state after reset with a script. -/
def withScript (l : List Stimulus) : State := { State.reset with script := l }

/-- A PUSH line, read and stepped (program P1, cycle 1). -/
theorem test_step_push_line :
    readLine "PUSH 000102030405060708090A0B0C0D0E0F ; A".toList = .ok (some (.cycle (.ofPins false true false exampleUp))) ∧
    (after State.reset (step (withScript [.cycle (.ofPins false true false exampleUp)]))).regs.s1Idx = win exampleUp := by decide

/-- 30_encoding R81, R84: a cycle of DRAIN is the line POP, with 0 on in_data whatever was there before. -/
theorem test_drain_drives_the_pop_line :
    (after State.reset (step ({ filled true true with script := [.drain false] }.drive (pins true false exampleUp)))).ports =
      pins false true 0 ∧
    (after State.reset (step ({ filled true true with script := [.drain false] }.drive (pins true false exampleUp)))).regs.s2Char =
      enc exampleHigh := by decide

/-- 30_encoding R80: the pseudo lines as they are read. -/
theorem test_read_pseudo_lines :
    readLine "PUSHW 000102030405060708090A0B0C0D0E0F".toList = .ok (some (.pushw exampleUp)) ∧
    readLine "DRAIN ; all".toList = .ok (some (.drain false)) ∧
    readLine "ENCODE 000102030405060708090a0b0c0d0e0f".toList = .ok (some (.encode exampleUp)) := by decide

/-- 30_encoding R83: the four refusals, and a line that takes no cycle. -/
theorem test_reader :
    readLine "push 00".toList = .error .unknownMnemonic ∧ readLine "PUSH 0001".toList = .error .badHex ∧
    readLine "POP 0".toList = .error .unexpectedOperand ∧ readLine "PUSHPOP ; none".toList = .error .missingOperand ∧
    readLine "  ; nothing".toList = .ok none := by decide

/-- 60_exceptions R201(a), (c): the boundary by name. -/
theorem test_boundary :
    sample ⟨.unclean, .low, .level .low, some 0⟩ State.reset = .error .uncleanControl ∧
    sample ⟨.low, .low, .level .unclean, some 0⟩ State.reset = .error .uncleanControl ∧
    sample ⟨.low, .low, .followInReady, some 0⟩ State.reset = .error .combinationalLoop ∧
    sample ⟨.low, .high, .level .low, none⟩ State.reset = .error .uncleanInData := by decide

/-- 70_reset_and_hazards R240: out_ready may follow out_valid. -/
theorem test_ready_follows_valid :
    sample ⟨.low, .low, .followOutValid, some 0⟩ (filled false true) = .ok (pins false true 0) ∧
    sample ⟨.low, .low, .followOutValid, some 0⟩ (filled false false) = .ok (pins false false 0) := by decide

/-- A placed table word is the next operation: PUSH (0b010), LANE21 (0b10101) and a word of no format. -/
theorem test_placed_words :
    (after State.reset (step (State.reset.withFetchWord 8 2))).regs.s1Valid = true ∧
    step (State.reset.withFetchWord 8 21) = exec .lane21 State.reset ∧
    step (State.reset.withFetchWord 8 200) = .refused (.undecodable (.noFormat 8 200)) :=
  ⟨rfl, rfl, rfl⟩

/-! ### Witnesses: for each statement with hypotheses, a state and operands that meet them -/

theorem witness_filled_is_safe : SafeState (filled true true) :=
  ⟨rfl, fun _ => rfl, fun _ => ⟨fun _ => ⟨exampleHigh, by decide, rfl⟩, fun _ => ⟨exampleUp, by decide, rfl⟩⟩,
    fun _ => ⟨fun _ => by decide, fun _ => by decide⟩, netsInv_of_unsettled _ rfl⟩

theorem witness_DecodeOfEncodeIsTheOperation : (Instr.lut 63).wellFormed = true ∧ (Instr.push 0).wellFormed = true := by decide

theorem witness_EncodeOfDecodeIsTheWord :
    decode (.lane 21) = .ok .lane21 ∧ decode (.index 63) = .ok (.lut 63) ∧ decode (.ctrl 0b111 5) = .ok .reset ∧
    (0b111#3).getLsbD 2 = true ∧ decode (.ctrl 0b011 5) = .ok (.pushpop 5) ∧ (0b011#3).getLsbD 2 = false ∧
    (0b011#3).getLsbD 1 = true ∧ decode (.ctrl 0b001 5) = .ok .pop ∧ (0b001#3).getLsbD 1 = false := by decide

theorem witness_DecoderAcceptsExactlyWellFormedWords :
    decode (.lane 22) = .error (.noSuchLane 22) ∧ decode (.unknown 8 200) = .error (.noFormat 8 200) := by decide

theorem witness_LaneSelectorsAbove21AreRefused :
    22 ≤ (22#5).toNat ∧ 22 ≤ (31#5).toNat ∧ (withScript [.evaluate (.lane 22)]).script = [.evaluate (.lane 22)] := by decide

theorem witness_EveryWellFormedWordFitsOneTableRow :
    decode (.ctrl 0b101 9) = .ok .reset ∧ decode (.lane 0) = .ok .lane0 ∧ decode (.index 0) = .ok (.lut 0) := by decide

theorem witness_StepRunsTheDecodedOperation :
    (withScript [.cycle (.ofPins false true false 9)]).script = .cycle (.ofPins false true false 9) :: [] ∧
    (withScript [.evaluate (.lane 7)]).script = .evaluate (.lane 7) :: [] ∧
    sample (.ofPins false true false 9) (withScript []) = .ok (pins true false 9) ∧
    decode (.ctrl (pins true false 9).ctrl 9) = .ok (.push 9) ∧ decode (.lane 7) = .ok .lane7 := by decide

theorem witness_PlacedTableWordIsTheNextOperation :
    tableCode 8 4 = .ctrl 0b100 0 ∧ tableCode 8 5 = .lane 5 ∧ decodeTableWord 8 5 = some .lane5 ∧
    decode (tableCode 5 22) = .error (.noSuchLane 22) ∧ decode (tableCode 8 64) = .error (.noFormat 8 64) := by decide

theorem witness_LanesOfShapeAFollowTheirRules :
    (0xFC#128) &&& 0xFC = (BitVec.allOnes 128) &&& 0xFC ∧ (0x03#128) &&& 0xFC = 0 ∧ (0xFF#128) &&& 0xFC = 0xFC := by decide

theorem witness_LanesOfShapeBFollowTheirRules :
    (0xF003#128) &&& 0xF003 = (BitVec.allOnes 128) &&& 0xF003 ∧ (0x0FFC#128) &&& 0xF003 = 0 ∧
    (0xFFFF#128) &&& 0xF003 = 0xF003 := by decide

theorem witness_LanesOfShapeCFollowTheirRules :
    (0xC00F00#128) &&& 0xC00F00 = (BitVec.allOnes 128) &&& 0xC00F00 ∧ (0x3FF0FF#128) &&& 0xC00F00 = 0 ∧
    (0xFFFFFF#128) &&& 0xC00F00 = 0xC00F00 := by decide

theorem witness_LanesOfShapeDFollowTheirRules :
    (0x3F0000#128) &&& 0x3F0000 = (BitVec.allOnes 128) &&& 0x3F0000 ∧ (0xC0FFFF#128) &&& 0x3F0000 = 0 ∧
    (0xFFFFFF#128) &&& 0x3F0000 = 0x3F0000 := by decide

theorem witness_TailLane21FollowsItsRule :
    (0x03000000000000000000000000000000#128) &&& 0x03000000000000000000000000000000 =
      (BitVec.allOnes 128) &&& 0x03000000000000000000000000000000 ∧
    (0xFC000000000000000000000000000000#128) &&& 0x03000000000000000000000000000000 = 0 := by decide

theorem witness_LanesEvaluatedInAnyOrderGiveWin : laneInstrs.reverse.Perm laneInstrs := List.reverse_perm _

theorem witness_EveryInputBitIsReadOnce : win exampleUp = win exampleUp ∧ 6 * 21 + 5 - 5 < 128 ∧ ¬ 6 * 21 + 5 - 3 < 128 := by decide

theorem witness_LanesReadOnlyTheirGroup :
    inByte 0xFF000000#128 (3 * 0) = inByte 0 (3 * 0) ∧ inByte 0xFF000000#128 (3 * 0 + 1) = inByte 0 (3 * 0 + 1) ∧
    inByte 0xFF000000#128 (3 * 0 + 2) = inByte 0 (3 * 0 + 2) ∧ inByte 0xFF000000#128 15 = inByte 0 15 := by decide

theorem witness_LookupsOfAllIndicesSettleEveryLane :
    (filled true false).regs.s1Valid = true ∧
    (∀ j : Fin 22, (filled true false).regs.s1Idx[j] ∈ (filled true false).regs.s1Idx.toList) ∧
    (filled false true).regs.s1Valid = false := by decide

theorem witness_LookupGivesTheAlphabetCode :
    (filled true false).regs.s1Valid = true ∧ (filled false true).regs.s1Valid = false ∧ ∃ i k : Index, i = 62 ∧ k = 63 :=
  ⟨rfl, rfl, 62, 63, rfl, rfl⟩

theorem witness_EncodeIsInjective : enc exampleUp = enc exampleUp ∧ encWord 0 = encWord 0 := ⟨rfl, rfl⟩

theorem witness_EncodedCharactersAreUrlSafe :
    (inByte 0 15).extractLsb' 0 2 = 0b00#2 ∧ (inByte (1 <<< 120) 15).extractLsb' 0 2 = 0b01#2 ∧
    (inByte (2 <<< 120) 15).extractLsb' 0 2 = 0b10#2 ∧ (inByte (3 <<< 120) 15).extractLsb' 0 2 = 0b11#2 := by decide

theorem witness_HandshakeOutputsFollowTheirFormulas :
    outValid (filled false true) = true ∧ outValid (filled true false) = false := by decide

theorem witness_ValidOutputStaysInTheAlphabet :
    AlphabetInv (filled true true) ∧ (filled true true).initialised = true ∧ outValid (filled true true) = true :=
  ⟨witness_filled_is_safe.alphabet, rfl, rfl⟩

theorem witness_ResetClearsTheValidBits : drained (filled false false) = true ∧ (0b101#3).getLsbD 2 = true := by decide

theorem witness_IdleAdvancesOrHolds :
    (filled true false).initialised = true ∧ ((filled true true).regs.s1Valid && !(filled true true).regs.s2Valid) = false := by
  decide

theorem witness_PushAcceptsUnlessBothStagesAreFull :
    (filled true true).initialised = true ∧ ((filled true true).regs.s1Valid && (filled true true).regs.s2Valid) = true ∧
    drained (filled false false) = true ∧
    ((filled false true).regs.s1Valid = false ∧ (filled false true).regs.s2Valid = true) ∧
    ((filled true false).regs.s1Valid = true ∧ (filled true false).regs.s2Valid = false) := by decide

theorem witness_PopTakesTheOfferedWord :
    (filled true true).initialised = true ∧ (filled true true).regs.s1Valid = true := by decide

theorem witness_PushpopAlwaysAcceptsItsWord :
    (filled false false).initialised = true ∧ drained (filled false false) = true := by decide

theorem witness_CycleIsTheStepFunction :
    ((filled true true).initialised || (pins true false 0).rst) = true ∧
    (State.powerOn.initialised || (Ports.mk true false false 0).rst) = true := by decide

theorem witness_TransfersHappenAsTheHandshakeSays :
    (pins true true 0).rst = false ∧ inFire ((filled true true).drive (pins true true 0)) = true ∧
    outFire ((filled true true).drive (pins true true 0)) = true ∧
    advances ((filled true true).drive (pins true true 0)) = true ∧
    inFire ((filled true true).drive (pins true false 0)) = false ∧
    outFire ((filled true true).drive (pins true false 0)) = false ∧
    advances ((filled true true).drive (pins true false 0)) = false := by decide

theorem witness_EveryOperationCompletesAfterReset : State.reset.initialised = true := rfl

theorem witness_NetsCarryNothingBetweenCycles :
    NetsInv (withScript [.evaluate (.lane 5)]) ∧ (∃ t, step (withScript [.evaluate (.lane 5)]) = .next t) ∧
    ∃ t, runPins (pins true false 9) State.reset = .next t :=
  ⟨netsInv_of_unsettled _ rfl, ⟨_, rfl⟩, _, rfl⟩

theorem witness_ControlIsDataOblivious :
    (filled true true).initialised = true ∧ (otherData true true).initialised = true ∧
    (filled true true).regs.s1Valid = (otherData true true).regs.s1Valid ∧
    (filled true true).regs.s2Valid = (otherData true true).regs.s2Valid ∧
    (pins true false 0).rst = (pins true false 1).rst ∧ (pins true false 0).inValid = (pins true false 1).inValid ∧
    (pins true false 0).outReady = (pins true false 1).outReady := by decide

theorem witness_EqualWordsGiveEqualResults :
    FifoInv (afterPop exampleUp) ∧ (afterPop exampleUp).initialised = true ∧ 0 < (afterPop exampleUp).delivered.length ∧
    (afterPop exampleUp).accepted[0]? = (afterPop exampleUp).accepted[0]? :=
  ⟨fun _ => rfl, rfl, by decide, rfl⟩

theorem witness_OccupancyIsSeenThroughTheHandshake :
    (pins true false 0).rst = false ∧ (filled true false).initialised = true ∧ (filled true false).regs.s1Valid = true ∧
    (filled true false).regs.s2Valid = false := by decide

theorem witness_DataOfAnEmptyStageIsNeverRead :
    (filled false false).initialised = true ∧ (otherData false false).initialised = true ∧
    SameVisible (filled false false).regs (otherData false false).regs ∧
    (filled false false).nets = (otherData false false).nets ∧
    outValid ((filled false true).drive (pins false true 0)) = true :=
  ⟨rfl, rfl, ⟨rfl, rfl, fun h => absurd h (by decide), fun h => absurd h (by decide)⟩, rfl, rfl⟩

theorem witness_OfferedResultIsHeldUntilTaken :
    (filled true true).initialised = true ∧ outValid ((filled true true).drive (pins true false 0)) = true ∧
    (pins true false 0).outReady = false ∧ (pins false true 0).rst = false := by decide

theorem witness_StalledOfferIsNotRemembered :
    (filled true true).initialised = true ∧ (pins true false 0).rst = false ∧ (pins true false 0).inValid = true ∧
    inReady ((filled true true).drive (pins true false 0)) = false := by decide

theorem witness_FirstCycleAfterResetAccepts : (pins true false 0).rst = false := rfl

theorem witness_CycleMovesTheQueueAsAFifo :
    (filled true true).initialised = true ∧ (pins true true 0).rst = false ∧
    outFire ((filled true true).drive (pins true true 0)) = true ∧ (Ports.mk true true true 0).rst = true := by decide

theorem witness_EveryStepKeepsFifoOrder :
    FifoInv (withScript [.cycle (.ofPins false true false 9)]) ∧
    ∃ t, step (withScript [.cycle (.ofPins false true false 9)]) = .next t :=
  ⟨fun _ => rfl, _, rfl⟩

theorem witness_OutputsAreAPrefixOfEncodedInputs :
    FifoInv (filled true true) ∧ FifoInv (filled false false) ∧ drained (filled false false) = true :=
  ⟨witness_filled_is_safe.fifo, fun _ => rfl, rfl⟩

theorem witness_EveryStepKeepsWhatTheStagesHold :
    FlightInv { filled true true with script := [.cycle (.ofPins false true true 9)] } ∧
    ∃ t, step { filled true true with script := [.cycle (.ofPins false true true 9)] } = .next t :=
  ⟨witness_filled_is_safe.flight, _, rfl⟩

theorem witness_EveryStepKeepsTheRegistersInRange :
    AlphabetInv { filled true true with script := [.cycle (.ofPins false true true 9)] } ∧
    ∃ t, step { filled true true with script := [.cycle (.ofPins false true true 9)] } = .next t :=
  ⟨witness_filled_is_safe.alphabet, _, rfl⟩

theorem witness_LatencyIsTwoCyclesWithoutBackPressure :
    (filled false false).initialised = true ∧ inFire ((filled false false).drive (pins true false 9)) = true ∧
    (after State.reset (runPins (pins true false 9) (filled false false))).regs.s2Valid = false ∧
    inFire ((filled true false).drive (pins true false 9)) = true ∧
    (after State.reset (runPins (pins true false 9) (filled true false))).regs.s2Valid = true ∧
    (∀ x ∈ [pins true false 7, pins false false 8], x.rst = false ∧ x.outReady = false) ∧
    [pins true false 7, pins false false 8] ≠ [] ∧ (pins false true 0).rst = false ∧ (pins false true 0).outReady = true := by
  decide

theorem witness_ThroughputIsOneWordPerCycle : (filled true true).initialised = true := rfl

/-- A hex32 as the statements on lines take it: read as a word, and one word of its line. -/
theorem witness_hex32_of_a_line :
    readHex32 "000102030405060708090A0B0C0D0E0F".toList = .ok exampleUp ∧
    wordsOf (beforeComment "000102030405060708090A0B0C0D0E0F".toList) = ["000102030405060708090A0B0C0D0E0F".toList] := by decide

theorem witness_EncodeLineDeliversTheEncoding :
    (withScript [.encode 9]).initialised = true ∧ drained (withScript [.encode 9]) = true ∧
    (withScript [.encode 9]).script = [.encode 9] := by decide

theorem witness_DrainLineEndsDrainedWithinFourCycles :
    { filled true true with script := [.drain false] }.initialised = true ∧
    { filled true true with script := [.drain false] }.script = .drain false :: [] := by decide

theorem witness_PushwHangsWhenBothStagesAreFull :
    { filled true true with script := [.pushw 9] }.initialised = true ∧
    { filled true true with script := [.pushw 9] }.script = .pushw 9 :: [] ∧
    occupancy { filled true true with script := [.pushw 9] } = 2 ∧
    occupancy { filled true false with script := [.pushw 9] } < 2 := by decide

theorem witness_StimulusLinesRunTheirOperations :
    (withScript [.cycle (.ofPins true false false 0)]).script = [.cycle (.ofPins true false false 0)] ∧
    (withScript [.cycle (.ofPins false false false 0)]).script = [.cycle (.ofPins false false false 0)] ∧
    (withScript [.cycle (.ofPins false false true 0)]).script = [.cycle (.ofPins false false true 0)] ∧
    (withScript [.cycle (.ofPins false true false 9)]).script = [.cycle (.ofPins false true false 9)] ∧
    (withScript [.cycle (.ofPins false true true 9)]).script = [.cycle (.ofPins false true true 9)] := by decide

theorem witness_HexLiteralsListByteZeroFirst : (inBytes exampleUp).length = 16 := by decide

theorem witness_ScriptReaderRefusesBrokenLines :
    wordsOf (beforeComment "NOP".toList) = ["NOP".toList] ∧
    wordsOf (beforeComment "POP 1".toList) = ["POP".toList, "1".toList] ∧
    wordsOf (beforeComment "PUSH".toList) = ["PUSH".toList] ∧
    wordsOf (beforeComment "PUSH 01".toList) = ["PUSH".toList, "01".toList] ∧
    wordsOf (beforeComment "PUSHW 01".toList) = ["PUSHW".toList, "01".toList] ∧
    wordsOf (beforeComment "ENCODE 01".toList) = ["ENCODE".toList, "01".toList] ∧ "01".toList.length ≠ 32 ∧
    hexDigit 'G' = none ∧ readLine "NOP".toList = .error .unknownMnemonic := by decide

theorem witness_BoundaryOfTheModelIsRefusedByName :
    (withScript [.cycle ⟨.unclean, .low, .level .low, none⟩]).script = .cycle ⟨.unclean, .low, .level .low, none⟩ :: [] ∧
    Level.low.bit = some false ∧ Level.high.bit = some true ∧
    (ReadyDrive.level .low).bit false true State.reset.regs = .ok false ∧
    inFire (State.reset.drive ⟨false, true, false, 0⟩) = true ∧
    inFire ((filled true true).drive ⟨false, true, false, 0⟩) = false ∧
    ((filled true true).initialised || false) = true ∧
    (withScript [.cycle ⟨.low, .high, .followInValid, some 9⟩]).script = .cycle ⟨.low, .high, .followInValid, some 9⟩ :: [] ∧
    (withScript [.cycle ⟨.low, .high, .followOutValid, some 9⟩]).script = .cycle ⟨.low, .high, .followOutValid, some 9⟩ :: [] ∧
    ReadyDrive.followInValid ≠ .level .unclean ∧ ReadyDrive.followInValid ≠ .followInReady := by decide

theorem witness_NoCycleButResetRunsBeforeTheFirstReset :
    State.powerOn.initialised = false ∧ (withScript [.powerLoss]).script = .powerLoss :: [] := by decide

theorem witness_StoppedClockHoldsTheState :
    (withScript [.clockStopped]).script = .clockStopped :: [] ∧ State.reset.script = [] := by decide

end Sys2Proof.Tests
end

section
/-! SUPPORT. One step on the host's next move: a move that decodes to an operation runs that operation. -/

namespace Sys2Proof.Machine

/-- With a move left in the script, a step makes that move. -/
theorem step_of_script {s : State} {x : Stimulus} {rest : List Stimulus} (hs : s.script = x :: rest) :
    step s = runStimulus x rest s := by
  simp only [step, runNext, hs]

/-- A code that decodes runs its operation. -/
theorem runCode_of_decode {w : Code} {i : Instr} (hw : decode w = .ok i) (s : State) : runCode w s = exec i s := by
  simp only [runCode, hw]

/-- Pins that are sampled as `p` run the code of `p`'s control vector on the ports `p` (00_scope R11, 30_encoding R70). -/
theorem runDrive_of_sample {d : Drive} {s : State} {p : Ports} (hp : sample d s = .ok p) :
    runDrive d s = runCode (.ctrl p.ctrl p.inData) (s.drive p) := by
  simp only [runDrive, hp]

/-- Settles O7: the step makes the next move of the script, and that move, once its pins are sampled, runs what its code
decodes to. -/
theorem stepRunsTheDecodedOperation : Obligations.StepRunsTheDecodedOperation := by
  intro s rest i
  constructor
  · intro d p hs hp hi
    calc step s
      _ = runDrive d { s with script := rest } := step_of_script hs
      _ = runCode (.ctrl p.ctrl p.inData) { s with ports := p, script := rest } := runDrive_of_sample hp
      _ = exec i { s with ports := p, script := rest } := runCode_of_decode hi _
  · intro w hs hi
    calc step s
      _ = runCode w { s with script := rest } := step_of_script hs
      _ = exec i { s with script := rest } := runCode_of_decode hi _

end Sys2Proof.Machine
end

section
/-! SUPPORT. Where a step can lead, and what a state that has been reset keeps along every step. -/

namespace Sys2Proof.Machine

/-- The next states of `s`. More exact than `step_cases` about the ports: only a clock cycle drives them, so a lane reads the
in_data that stands on the port already. -/
inductive StepsTo (s : State) : State → Prop where
  | hold (r : List Stimulus) : StepsTo s { s with script := r }
  | powerLoss (r : List Stimulus) : StepsTo s { s.losePower with script := r }
  | cycle (p : Ports) (r : List Stimulus) (h : (s.initialised || p.rst) = true) :
      StepsTo s (({ s with script := r } : State).drive p).edge
  | lane (j : Fin 22) (r : List Stimulus) :
      StepsTo s (({ s with script := r } : State).settleLane j (win s.ports.inData)[j])
  | lookup (i : Index) (r : List Stimulus) : StepsTo s (({ s with script := r } : State).settleLookup i)

/-- Driven pins that end in a next state were sampled, and ran one clock cycle. -/
theorem stepsTo_of_runDrive {d : Drive} {s t : State} {r : List Stimulus}
    (h : runDrive d { s with script := r } = .next t) : StepsTo s t := by
  unfold runDrive at h
  split at h
  next p _ =>
    change runPins p { s with script := r } = .next t at h
    rw [runPins_eq, clockCycle_eq_next] at h
    obtain ⟨hrun, rfl⟩ := h
    exact .cycle p r hrun
  next => cases h

/-- A code evaluated by itself that ends in a next state ran one operation. -/
theorem stepsTo_of_runCode {w : Code} {s t : State} {r : List Stimulus}
    (h : runCode w { s with script := r } = .next t) : StepsTo s t := by
  obtain ⟨i, -, hi⟩ := runCode_cases _ _ _ h
  obtain ⟨p, hrun, rfl⟩ | ⟨j, rfl⟩ | ⟨x, rfl⟩ := exec_cases _ _ _ hi
  · exact .cycle p r hrun
  · exact .lane j r
  · exact .lookup x r

theorem stepsTo_of_step {s t : State} (h : step s = .next t) : StepsTo s t := by
  cases hs : s.script with
  | nil =>
    simp only [step, runNext, hs] at h
    cases h
    exact .hold s.script
  | cons x rest =>
    rw [step_of_script hs] at h
    cases x with
    | cycle d => exact stepsTo_of_runDrive h
    | evaluate w => exact stepsTo_of_runCode h
    | pushw d => exact stepsTo_of_runDrive (d := linePush d) h
    | drain e => exact stepsTo_of_runDrive (d := linePop) h
    | encode d =>
      simp only [runStimulus, runEncode] at h
      split at h
      · exact stepsTo_of_runDrive h
      · cases h
    | clockStopped =>
      cases h
      exact .hold rest
    | powerLoss =>
      cases h
      exact .powerLoss rest

/-- A property of the machine since its last reset is kept by every step when it does not read the ports, the nets and the script,
a cycle with rst = 1 establishes it, and a cycle with rst = 0 keeps it. -/
theorem step_keeps_sinceReset {P : State → Prop}
    (hframe : ∀ (s : State) p n r, P s → P { s with ports := p, nets := n, script := r })
    (hreset : ∀ s : State, s.ports.rst = true → P s.edge)
    (hrun : ∀ s : State, s.ports.rst = false → P s → P s.edge)
    {s t : State} (hP : s.initialised = true → P s) (h : step s = .next t) : t.initialised = true → P t := by
  intro hinit
  cases stepsTo_of_step h with
  | hold r => exact hframe s s.ports s.nets r (hP hinit)
  | powerLoss r => cases hinit
  | cycle p r hc =>
    cases hp : p.rst with
    | true => exact hreset _ hp
    | false =>
      have hi : s.initialised = true := by simpa [hp] using hc
      exact hrun _ hp (hframe s p s.nets r (hP hi))
  | lane j r => exact hframe s s.ports _ r (hP hinit)
  | lookup i r => exact hframe s s.ports _ r (hP hinit)

/-! ### What the edge leaves in a stage -/

theorem nextRegs_of_rst {s : State} (h : s.ports.rst = true) :
    (nextRegs s).s1Valid = false ∧ (nextRegs s).s2Valid = false := by
  simp [nextRegs, h]

theorem rst_low_of_inFire {s : State} (h : inFire s = true) : s.ports.rst = false := by
  simp only [inFire, inReady, Bool.and_eq_true, Bool.not_eq_true'] at h
  exact h.2.1

theorem s1_valid_of_advances {s : State} (h : advances s = true) : s.regs.s1Valid = true := by
  simp only [advances, Bool.and_eq_true] at h
  exact h.2.1

/-- A valid S1 after the edge was loaded with WIN of the transferred word, or kept what it held (42_stream_ops R162). -/
theorem nextRegs_s1_cases {s : State} (h : (nextRegs s).s1Valid = true) :
    (inFire s = true ∧ (nextRegs s).s1Idx = win s.ports.inData) ∨
    (s.regs.s1Valid = true ∧ (nextRegs s).s1Idx = s.regs.s1Idx) := by
  cases hr : s.ports.rst with
  | true => simp [nextRegs_of_rst hr] at h
  | false =>
    cases hf : inFire s with
    | true => simp [nextRegs, hr, hf]
    | false =>
      have hv : s.regs.s1Valid = true ∧ advances s = false := by simpa [nextRegs, hr, hf] using h
      simp [nextRegs, hr, hf, hv.1]

/-- A valid S2 after the edge was loaded with LUT of a valid S1, or kept what it held (42_stream_ops R162). -/
theorem nextRegs_s2_cases {s : State} (h : (nextRegs s).s2Valid = true) :
    (s.regs.s1Valid = true ∧ (nextRegs s).s2Char = lutAll s.regs.s1Idx) ∨
    (s.regs.s2Valid = true ∧ (nextRegs s).s2Char = s.regs.s2Char) := by
  cases hr : s.ports.rst with
  | true => simp [nextRegs_of_rst hr] at h
  | false =>
    cases ha : advances s with
    | true => simp [nextRegs, hr, ha, s1_valid_of_advances ha]
    | false =>
      have hv : s.regs.s2Valid = true ∧ s.ports.outReady = false := by simpa [nextRegs, hr, ha] using h
      simp [nextRegs, hr, ha, hv.1]

theorem mem_nextAccepted_of_mem {s : State} {d : DataIn} (hr : s.ports.rst = false) (hd : d ∈ s.accepted) :
    d ∈ nextAccepted s := by
  cases hf : inFire s <;> simp [nextAccepted, hr, hf, hd]

theorem inData_mem_nextAccepted {s : State} (hf : inFire s = true) : s.ports.inData ∈ nextAccepted s := by
  simp [nextAccepted, rst_low_of_inFire hf, hf]

end Sys2Proof.Machine
end

section
/-! SUPPORT. What the stages of a reset machine hold: WIN and ENC of accepted words (10_state R29). -/

namespace Sys2Proof.Machine

/-- The body of `FlightInv`, for a machine that has been reset. -/
def StagesHoldAccepted (s : State) : Prop :=
  (s.regs.s1Valid = true → ∃ d ∈ s.accepted, s.regs.s1Idx = win d) ∧
  (s.regs.s2Valid = true → ∃ d ∈ s.accepted, s.regs.s2Char = enc d)

theorem flightInv_iff (s : State) : FlightInv s ↔ (s.initialised = true → StagesHoldAccepted s) := Iff.rfl

theorem stagesHoldAccepted_of_empty {s : State} (h1 : s.regs.s1Valid = false) (h2 : s.regs.s2Valid = false) :
    StagesHoldAccepted s := by
  simp [StagesHoldAccepted, h1, h2]

theorem edge_keeps_stagesHoldAccepted {s : State} (hr : s.ports.rst = false) (h : StagesHoldAccepted s) :
    StagesHoldAccepted s.edge := by
  obtain ⟨h1, h2⟩ := h
  constructor
  · intro hv
    obtain ⟨hf, he⟩ | ⟨hv, he⟩ := nextRegs_s1_cases hv
    · exact ⟨_, inData_mem_nextAccepted hf, he⟩
    · obtain ⟨d, hd, hw⟩ := h1 hv
      exact ⟨d, mem_nextAccepted_of_mem hr hd, he.trans hw⟩
  · intro hv
    obtain ⟨hv, he⟩ | ⟨hv, he⟩ := nextRegs_s2_cases hv
    · obtain ⟨d, hd, hw⟩ := h1 hv
      exact ⟨d, mem_nextAccepted_of_mem hr hd, he.trans (congrArg lutAll hw)⟩
    · obtain ⟨d, hd, hc⟩ := h2 hv
      exact ⟨d, mem_nextAccepted_of_mem hr hd, he.trans hc⟩

/-- Settles O45: a reset empties both stages; a cycle loads S1 with WIN of the word it accepts and S2 with LUT of S1, which
is ENC of the word S1 came from; no other step touches a register or the list of accepted words. -/
theorem everyStepKeepsWhatTheStagesHold : Obligations.EveryStepKeepsWhatTheStagesHold := by
  intro s t hs h
  rw [flightInv_iff] at hs ⊢
  refine step_keeps_sinceReset (fun _ _ _ _ hP => hP) (fun u hr => ?_) (fun u hr hP => ?_) hs h
  · obtain ⟨h1, h2⟩ := nextRegs_of_rst hr
    exact stagesHoldAccepted_of_empty h1 h2
  · exact edge_keeps_stagesHoldAccepted hr hP

end Sys2Proof.Machine
end

section
/-! SUPPORT. The range of what the stages of a reset machine hold (10_state R28). -/

namespace Sys2Proof.Machine

/-- The body of `AlphabetInv`, for a machine that has been reset. -/
def StagesInRange (s : State) : Prop :=
  (s.regs.s1Valid = true → (∀ j : Fin 22, s.regs.s1Idx[j].toNat < 64) ∧ s.regs.s1Idx[21].extractLsb' 0 4 = 0#4) ∧
  (s.regs.s2Valid = true → (∀ j : Fin 22, inAlphabet s.regs.s2Char[j]) ∧ isTailChar s.regs.s2Char[21])

theorem alphabetInv_iff (s : State) : AlphabetInv s ↔ (s.initialised = true → StagesInRange s) := Iff.rfl

/-- The four low bits of window shape W_T are the constant zeros (30_encoding R77). -/
theorem windowT_low_bits (x : Byte) : (windowT x).extractLsb' 0 4 = 0#4 := by
  unfold windowT
  exact BitVec.extractLsb'_append_eq_right

/-- An index with the tail zeros looks up a tail character (41_alphabet_lut R150). -/
theorem isTailChar_lut (i : Index) (h : i.extractLsb' 0 4 = 0#4) : isTailChar (lut i) := by
  revert i
  decide

theorem stagesInRange_of_empty {s : State} (h1 : s.regs.s1Valid = false) (h2 : s.regs.s2Valid = false) :
    StagesInRange s := by
  simp [StagesInRange, h1, h2]

theorem edge_keeps_stagesInRange {s : State} (h : StagesInRange s) : StagesInRange s.edge := by
  obtain ⟨h1, h2⟩ := h
  constructor
  · intro hv
    refine ⟨fun j => BitVec.isLt _, ?_⟩
    obtain ⟨-, he⟩ | ⟨hv, he⟩ := nextRegs_s1_cases hv
    · rw [State.edge_regs, he, win_get_21]
      exact windowT_low_bits _
    · rw [State.edge_regs, he]
      exact (h1 hv).2
  · intro hv
    obtain ⟨hv, he⟩ | ⟨hv, he⟩ := nextRegs_s2_cases hv
    · rw [State.edge_regs, he]
      refine ⟨fun j => ?_, ?_⟩
      · rw [Fin.getElem_fin, lutAll_get]
        exact inAlphabet_lut _
      · rw [lutAll_get]
        exact isTailChar_lut _ (h1 hv).2
    · rw [State.edge_regs, he]
      exact h2 hv

/-- Settles O46: a reset empties both stages; a cycle loads S1 with WIN, whose lane 21 ends in four constant zeros, and S2 with
LUT of S1, which is of the alphabet, and a tail character where S1 has the tail zeros. -/
theorem everyStepKeepsTheRegistersInRange : Obligations.EveryStepKeepsTheRegistersInRange := by
  intro s t hs h
  rw [alphabetInv_iff] at hs ⊢
  refine step_keeps_sinceReset (fun _ _ _ _ hP => hP) (fun u hr => ?_) (fun u _ hP => ?_) hs h
  · obtain ⟨h1, h2⟩ := nextRegs_of_rst hr
    exact stagesInRange_of_empty h1 h2
  · exact edge_keeps_stagesInRange hP

end Sys2Proof.Machine
end

section
/-! SUPPORT. The handshake outputs and the out_data bus (10_state R24, R35 to R39). -/

namespace Sys2Proof.Machine

/-- `n + 1` characters on a bus, character 0 in the low byte (10_state R24). -/
def charBus (c : Nat → CharCode) : (n : Nat) → BitVec (8 * (n + 1))
  | 0 => c 0
  | n + 1 => charBus (fun k => c (k + 1)) n ++ c 0

theorem packChars_eq_charBus (v : Chars) : packChars v = charBus (fun k => v[k]?.getD 0) 21 := rfl

/-- Byte j of the bus is character j: the low byte is character 0, and what stands above it is the bus of the others. -/
theorem charBus_extract (n : Nat) :
    ∀ (c : Nat → CharCode) (j : Nat), j ≤ n → (charBus c n).extractLsb' (8 * j) 8 = c j := by
  induction n with
  | zero =>
    intro c j hj
    obtain rfl : j = 0 := by omega
    exact BitVec.extractLsb'_eq_self
  | succ n ih =>
    intro c j hj
    cases j with
    | zero => exact BitVec.extractLsb'_append_eq_right
    | succ j =>
      calc (charBus (fun k => c (k + 1)) n ++ c 0).extractLsb' (8 * (j + 1)) 8
        _ = (charBus (fun k => c (k + 1)) n).extractLsb' (8 * j) 8 :=
          BitVec.extractLsb'_append_eq_of_le (by omega)
        _ = c (j + 1) := ih _ j (by omega)

/-- Character field j of the packed word is character j (30_encoding R74). -/
theorem outChar_packChars (v : Chars) (j : Fin 22) : outChar (packChars v) j = v[j] := by
  rw [packChars_eq_charBus, outChar, charBus_extract 21 _ j (by omega)]
  simp

theorem inReady_iff (s : State) : inReady s = true ↔
    s.ports.rst = false ∧ (s.regs.s1Valid = false ∨ s.regs.s2Valid = false ∨ s.ports.outReady = true) := by
  simp [inReady, or_assoc]

theorem outValid_iff (s : State) : outValid s = true ↔ s.ports.rst = false ∧ s.regs.s2Valid = true := by
  simp [outValid]

theorem outData_of_outValid {s : State} (h : outValid s = true) : outData s = packChars s.regs.s2Char :=
  if_pos h

theorem outData_of_not_outValid {s : State} (h : outValid s = false) : outData s = Config.freeOutData s.draws := by
  simp [outData, h]

/-- Settles O26: the two handshake signals are the formulas of R37 and R38, and the fields of the packed word are the
characters of S2. -/
theorem handshakeOutputsFollowTheirFormulas : Obligations.HandshakeOutputsFollowTheirFormulas := by
  intro s
  refine ⟨inReady_iff s, outValid_iff s, fun hv j => ?_, outData_of_not_outValid⟩
  rw [outData_of_outValid hv, outChar_packChars]

theorem occupancy_eq_length_queue (s : State) : occupancy s = (queue s).length := by
  cases h1 : s.regs.s1Valid <;> cases h2 : s.regs.s2Valid <;> simp [occupancy, queue, h1, h2]

theorem occupancy_le_capacity (s : State) : occupancy s ≤ Config.capacity :=
  Nat.add_le_add (Bool.toNat_le _) (Bool.toNat_le _)

theorem occupancy_eq_two_iff (s : State) :
    occupancy s = 2 ↔ s.regs.s1Valid = true ∧ s.regs.s2Valid = true := by
  cases h1 : s.regs.s1Valid <;> cases h2 : s.regs.s2Valid <;> simp [occupancy, h1, h2]

/-- The block is not ready, outside reset, exactly when both stages are full and the host takes nothing (10_state R37). -/
theorem inReady_drive_eq_false_iff (s : State) {p : Ports} (hr : p.rst = false) :
    inReady (s.drive p) = false ↔ occupancy s = 2 ∧ p.outReady = false := by
  rw [occupancy_eq_two_iff, ← Bool.not_eq_true, inReady_iff]
  simp [hr, and_assoc]

/-- A full S1 above an empty S2 advances in every cycle with rst = 0 (42_stream_ops R162). -/
theorem stepRegs_of_s1_alone {p : Ports} {r : Regs} (hr : p.rst = false) (h1 : r.s1Valid = true)
    (h2 : r.s2Valid = false) : (stepRegs p r).s2Valid = true ∧ (stepRegs p r).s2Char = lutAll r.s1Idx := by
  simp [stepRegs, hr, h1, h2]

/-- Settles O50: the queue has one entry per valid stage, and S1 alone advances in the next cycle. -/
theorem occupancyIsSeenThroughTheHandshake : Obligations.OccupancyIsSeenThroughTheHandshake := by
  intro s p hr
  refine ⟨occupancy_eq_length_queue s, occupancy_le_capacity s, by simp [outValid, hr],
    inReady_drive_eq_false_iff s hr, fun hi h1 h2 => ?_⟩
  obtain ⟨t, ht, hregs, -⟩ := clockCycle_drive s p (by simp [hi])
  refine ⟨t, (runPins_eq p s).trans ht, ?_⟩
  rw [hregs]
  exact stepRegs_of_s1_alone hr h1 h2

end Sys2Proof.Machine
end

section
/-! SUPPORT. The nets, and what a cycle and a lookup read of an empty stage (10_state R25, R41). -/

namespace Sys2Proof.Machine

theorem netsInv_script {s : State} (h : NetsInv s) (r : List Stimulus) : NetsInv { s with script := r } :=
  ⟨h.idx, h.ch, h.lutOut⟩

/-- Settling a lane on its window of the present in_data is right. -/
theorem netsInv_settleLane {s : State} (h : NetsInv s) (j : Fin 22) :
    NetsInv (s.settleLane j (win s.ports.inData)[j]) where
  idx k v hv := by
    rw [State.settleLane_nets, Fin.getElem_fin, Vector.getElem_set] at hv
    split at hv
    next hjk =>
      cases hv
      simp [hjk]
    next => exact h.idx k v hv
  ch := h.ch
  lutOut := h.lutOut

/-- A lookup gives a code of the alphabet, and drives the lanes of a valid S1 whose operand it is. -/
theorem netsInv_settleLookup {s : State} (h : NetsInv s) (i : Index) : NetsInv (s.settleLookup i) where
  idx := h.idx
  ch k c hc := by
    rw [State.settleLookup_nets, Fin.getElem_fin, lookupCh_get] at hc
    split at hc
    next hk =>
      obtain ⟨hv, rfl⟩ := hk
      cases hc
      exact ⟨hv, rfl⟩
    next => exact h.ch k c hc
  lutOut c hc := ⟨i, by cases hc; rfl⟩

theorem step_keeps_netsInv {s t : State} (hs : NetsInv s) (h : step s = .next t) : NetsInv t := by
  cases stepsTo_of_step h with
  | hold r => exact netsInv_script hs r
  | powerLoss r => exact netsInv_of_unsettled _ rfl
  | cycle p r => exact netsInv_of_unsettled _ rfl
  | lane j r => exact netsInv_settleLane (netsInv_script hs r) j
  | lookup i r => exact netsInv_settleLookup (netsInv_script hs r) i

/-- Settles O36: the edge neither reads the nets nor leaves one with a value, and only the evaluation of a lane or a lookup gives
one a value. -/
theorem netsCarryNothingBetweenCycles : Obligations.NetsCarryNothingBetweenCycles :=
  ⟨runPins_of_nets, runPins_nets, fun _ _ => step_keeps_netsInv⟩

/-- The step function reads no data of an empty stage (10_state R29, 42_stream_ops R162): what a stage holds after the cycle, if it
is valid, it kept valid, or it loaded from in_data or from a valid S1. -/
theorem sameVisible_stepRegs {r q : Regs} (h : SameVisible r q) (p : Ports) :
    SameVisible (stepRegs p r) (stepRegs p q) := by
  cases hp : p.rst with
  | true => constructor <;> simp [stepRegs, hp]
  | false =>
    constructor
    case s1Valid => simp [stepRegs, hp, h.s1Valid, h.s2Valid]
    case s2Valid => simp [stepRegs, hp, h.s1Valid, h.s2Valid]
    case s1Idx =>
      cases h1 : r.s1Valid with
      | true => simp [stepRegs, hp, h.s1Idx h1, h.s1Valid, h.s2Valid]
      | false => simp +contextual [stepRegs, hp, h1, ← h.s1Valid]
    case s2Char =>
      cases h1 : r.s1Valid with
      | true =>
        cases h2 : r.s2Valid with
        | true => simp [stepRegs, hp, h1, h2, h.s1Idx h1, h.s2Char h2, ← h.s1Valid, ← h.s2Valid]
        | false => simp [stepRegs, hp, h1, h2, h.s1Idx h1, ← h.s1Valid, ← h.s2Valid]
      | false => simp +contextual [stepRegs, hp, h1, ← h.s1Valid, h.s2Char]

/-- A lookup reads s1_idx of a valid S1 only (10_state R41). -/
theorem lookupCh_eq_of_sameVisible {r q : Regs} (h : SameVisible r q) (i : Index) (ch : Vector (Option CharCode) 22) :
    lookupCh i r ch = lookupCh i q ch := by
  cases hv : r.s1Valid with
  | false => rw [lookupCh_of_s1_empty i r ch hv, lookupCh_of_s1_empty i q ch (h.s1Valid ▸ hv)]
  | true => simp only [lookupCh, h.s1Valid, h.s1Idx hv]

/-- Settles O51: out_data, the step function and a lookup read a stage's data only behind its valid bit, so two runs that agree
on what is visible go on agreeing. -/
theorem dataOfAnEmptyStageIsNeverRead : Obligations.DataOfAnEmptyStageIsNeverRead := by
  intro s u p hs hu h
  refine ⟨by simp [inReady, h.s1Valid, h.s2Valid], by simp [outValid, h.s2Valid], fun hv => ?_, ?_, fun hn i => ?_⟩
  · have hv' : outValid (u.drive p) = true := by simpa [outValid, h.s2Valid] using hv
    rw [outData_of_outValid hv, outData_of_outValid hv']
    exact congrArg packChars (h.s2Char ((outValid_iff _).1 hv).2)
  · obtain ⟨t, ht, htr, htf⟩ := clockCycle_drive s p (by simp [hs])
    obtain ⟨v, hv, hvr, hvf⟩ := clockCycle_drive u p (by simp [hu])
    refine ⟨t, v, (runPins_eq p s).trans ht, (runPins_eq p u).trans hv, ?_, htf.nets.trans hvf.nets.symm⟩
    rw [htr, hvr]
    exact sameVisible_stepRegs h p
  · refine ⟨_, _, rfl, rfl, ?_⟩
    simp only [State.settleLookup_nets, hn, lookupCh_eq_of_sameVisible h]

end Sys2Proof.Machine
end

section
/-! SUPPORT. The state after reset (10_state R40, 70_reset_and_hazards R233, R234). -/

namespace Sys2Proof.Machine

theorem safeState_reset : SafeState State.reset where
  initialised := rfl
  fifo _ := rfl
  flight := (flightInv_iff _).2 fun _ => stagesHoldAccepted_of_empty rfl rfl
  alphabet := (alphabetInv_iff _).2 fun _ => stagesInRange_of_empty rfl rfl
  nets := netsInv_of_unsettled _ rfl

/-- Settles O41: both stages are empty after reset, so the invariants on their contents ask for nothing. -/
theorem resetStateIsDrainedAndReady : Obligations.ResetStateIsDrainedAndReady :=
  ⟨rfl, rfl, rfl, rfl, rfl, rfl, safeState_reset⟩

end Sys2Proof.Machine
end

section
/-! SUPPORT. The queue of transactions under one clock cycle, and FIFO order since the last reset (10_state R35, 20_memory R58,
42_stream_ops R172). -/

namespace Sys2Proof.Machine

theorem queue_of_empty {s : State} (h1 : s.regs.s1Valid = false) (h2 : s.regs.s2Valid = false) : queue s = [] := by
  simp [queue, h1, h2]

/-- What an output transfer takes is the head of the queue (42_stream_ops R172(b)). -/
theorem queue_eq_cons_of_outFire {s : State} (h : outFire s = true) : queue s = outData s :: (queue s).tail := by
  have hout := h
  simp only [outFire, Bool.and_eq_true, outValid_iff] at hout
  obtain ⟨⟨-, hv⟩, -⟩ := hout
  simp [queue, hv, outData_of_outFire s h]

/-- An input transfer finds room in S1: it is empty, or its entry advances (42_stream_ops R163). -/
theorem s1_free_of_inFire {s : State} (h : inFire s = true) : (s.regs.s1Valid && !advances s) = false := by
  simp only [inFire, Bool.and_eq_true, inReady_iff] at h
  obtain ⟨-, hr, h1 | h2 | ho⟩ := h
  · simp [h1]
  · simp [advances, hr, h2]
  · simp [advances, hr, ho]

/-- What an output transfer leaves of the queue stands, after the edge, in S2, and in S1 if it did not advance. -/
theorem queue_left_eq_stages {s : State} (hr : s.ports.rst = false) :
    (if outFire s then (queue s).tail else queue s) =
      (if (nextRegs s).s2Valid then [packChars (nextRegs s).s2Char] else []) ++
      (if s.regs.s1Valid && !advances s then [packChars (lutAll s.regs.s1Idx)] else []) := by
  have hout : outFire s = (s.regs.s2Valid && s.ports.outReady) := by simp [outFire, outValid, hr]
  have hadv : advances s = (s.regs.s1Valid && (!s.regs.s2Valid || s.ports.outReady)) := by simp [advances, hr]
  cases h2 : s.regs.s2Valid with
  | false => cases h1 : s.regs.s1Valid <;> simp [queue, nextRegs, hr, hout, hadv, h1, h2]
  | true =>
    cases ho : s.ports.outReady with
    | false => simp [queue, nextRegs, hr, hout, hadv, h2, ho]
    | true => cases h1 : s.regs.s1Valid <;> simp [queue, nextRegs, hr, hout, hadv, h1, h2, ho]

/-- A cycle with rst = 0 removes the head of the queue at an output transfer and appends ENC of the word of an input transfer
(42_stream_ops R172). -/
theorem queue_edge {s : State} (hr : s.ports.rst = false) :
    queue s.edge = (if outFire s then (queue s).tail else queue s) ++
      (if inFire s then [encWord s.ports.inData] else []) := by
  have hs1 : (if (nextRegs s).s1Valid then [packChars (lutAll (nextRegs s).s1Idx)] else []) =
      (if s.regs.s1Valid && !advances s then [packChars (lutAll s.regs.s1Idx)] else []) ++
      (if inFire s then [encWord s.ports.inData] else []) := by
    cases hf : inFire s with
    | true => simp [nextRegs, hr, hf, s1_free_of_inFire hf, encWord, enc]
    | false => simp [nextRegs, hr, hf]
  rw [queue_left_eq_stages hr, List.append_assoc, ← hs1]
  rfl

/-- The body of `FifoInv`, for a machine that has been reset: what was delivered and what is queued are ENC of what was
accepted, in order. -/
def InFifoOrder (s : State) : Prop := s.delivered ++ queue s = s.accepted.map encWord

theorem fifoInv_iff (s : State) : FifoInv s ↔ (s.initialised = true → InFifoOrder s) := Iff.rfl

theorem edge_of_rst_inFifoOrder {s : State} (hr : s.ports.rst = true) : InFifoOrder s.edge := by
  obtain ⟨h1, h2⟩ := nextRegs_of_rst hr
  have hq : queue s.edge = [] := queue_of_empty h1 h2
  simp [InFifoOrder, hq, nextDelivered, nextAccepted, hr]

/-- An output transfer moves the head of the queue to the delivered words, so the two together stay as they were. -/
theorem nextDelivered_append_queue_left {s : State} (hr : s.ports.rst = false) :
    nextDelivered s ++ (if outFire s then (queue s).tail else queue s) = s.delivered ++ queue s := by
  cases hf : outFire s with
  | true =>
    rw [queue_eq_cons_of_outFire hf]
    simp [nextDelivered, hr, hf]
  | false => simp [nextDelivered, hr, hf]

/-- An input transfer appends its word's encoding to the encodings of the accepted words. -/
theorem nextAccepted_map_encWord {s : State} (hr : s.ports.rst = false) :
    (nextAccepted s).map encWord =
      s.accepted.map encWord ++ (if inFire s then [encWord s.ports.inData] else []) := by
  cases hf : inFire s <;> simp [nextAccepted, hr, hf]

theorem edge_keeps_inFifoOrder {s : State} (hr : s.ports.rst = false) (h : InFifoOrder s) : InFifoOrder s.edge :=
  calc nextDelivered s ++ queue s.edge
    _ = (nextDelivered s ++ if outFire s then (queue s).tail else queue s) ++
          (if inFire s then [encWord s.ports.inData] else []) := by rw [queue_edge hr, List.append_assoc]
    _ = s.accepted.map encWord ++ (if inFire s then [encWord s.ports.inData] else []) := by
        rw [nextDelivered_append_queue_left hr, h]
    _ = (nextAccepted s).map encWord := (nextAccepted_map_encWord hr).symm

/-- Settles O43: a reset empties the queue and both lists; in a cycle an output transfer moves the head of the queue to the
delivered words and an input transfer appends ENC of its word at the tail; after a loss of power nothing is claimed before the
next reset, and no other step touches a register or a list. -/
theorem everyStepKeepsFifoOrder : Obligations.EveryStepKeepsFifoOrder := by
  intro s t hs h
  rw [fifoInv_iff] at hs ⊢
  exact step_keeps_sinceReset (fun _ _ _ _ hP => hP) (fun _ => edge_of_rst_inFifoOrder)
    (fun _ => edge_keeps_inFifoOrder) hs h

/-- In FIFO order, the accepted words not yet delivered are those in flight. -/
theorem length_accepted_of_inFifoOrder {s : State} (h : InFifoOrder s) :
    s.accepted.length = s.delivered.length + occupancy s := by
  have hlen := congrArg List.length h
  rw [List.length_append, List.length_map] at hlen
  rw [occupancy_eq_length_queue, hlen]

theorem queue_of_drained {s : State} (h : drained s = true) : queue s = [] := by
  simp only [drained, Bool.and_eq_true, Bool.not_eq_true'] at h
  exact queue_of_empty h.1 h.2

/-- Settles O44: the delivered words come first in ENC of the accepted words, and what is missing is the queue, which holds as
many words as the occupancy says, and none in the drained state. -/
theorem outputsAreAPrefixOfEncodedInputs : Obligations.OutputsAreAPrefixOfEncodedInputs := by
  intro s hs hi
  have hf : InFifoOrder s := (fifoInv_iff s).1 hs hi
  have hlen := length_accepted_of_inFifoOrder hf
  have hcap := occupancy_le_capacity s
  refine ⟨⟨queue s, hf⟩, by omega, by omega, fun hd => ?_, by omega⟩
  rw [← hf, queue_of_drained hd, List.append_nil]

end Sys2Proof.Machine
end

section
/-! SUPPORT. Decoder, encoder and opcode table: what each accepts, and how they undo each other (30_encoding R70 to R79). -/

namespace Sys2Proof

open Sys2Proof.Machine

/-- The eight control vectors (30_encoding R72). -/
theorem ctrl_cases (c : BitVec 3) :
    c = 0b000 ∨ c = 0b001 ∨ c = 0b010 ∨ c = 0b011 ∨ c = 0b100 ∨ c = 0b101 ∨ c = 0b110 ∨ c = 0b111 := by
  revert c
  decide

/-- Every control vector is that of the pins at its three bits (30_encoding R70). -/
theorem ctrl_of_bits (c : BitVec 3) (d : DataIn) :
    Ports.ctrl ⟨c.getLsbD 2, c.getLsbD 1, c.getLsbD 0, d⟩ = c := by
  have h : ∀ c : BitVec 3,
      BitVec.ofBool (c.getLsbD 2) ++ BitVec.ofBool (c.getLsbD 1) ++ BitVec.ofBool (c.getLsbD 0) = c := by decide
  exact h c

/-- A control vector is encoded back as it was, but for what RESET and a cycle without a word ignore (30_encoding R72, R81). -/
theorem encode_decodeCtrl (c : BitVec 3) (d : DataIn) :
    encode (decodeCtrl c d) =
      .ctrl (if c.getLsbD 2 then 0b100 else c) (if !c.getLsbD 2 && c.getLsbD 1 then d else 0) := by
  obtain rfl | rfl | rfl | rfl | rfl | rfl | rfl | rfl := ctrl_cases c <;> rfl

/-- What a lane selector decodes to is encoded as that selector (30_encoding R75). -/
theorem encode_of_decodeLane {sel : BitVec 5} {i : Instr} (h : decodeLane sel = .ok i) : encode i = .lane sel := by
  unfold decodeLane at h
  split at h
  case h_23 => cases h
  all_goals
    next hsel =>
      cases h
      exact congrArg Code.lane (BitVec.eq_of_toNat_eq hsel.symm)

/-- Selectors 0 to 21 name a lane (30_encoding R75). -/
theorem exists_decodeLane_of_le {sel : BitVec 5} (h : sel.toNat ≤ 21) : ∃ i, decodeLane sel = .ok i := by
  unfold decodeLane
  interval_cases sel.toNat <;> exact ⟨_, rfl⟩

/-- Selectors 22 to 31 name none (30_encoding R76). -/
theorem decodeLane_of_ge {sel : BitVec 5} (h : 22 ≤ sel.toNat) : decodeLane sel = .error (.noSuchLane sel) := by
  unfold decodeLane
  split
  case h_23 => rfl
  all_goals omega

theorem instr_wellFormed (i : Instr) : i.wellFormed = true := by
  cases i <;> rfl

theorem decode_encode (i : Instr) : decode (encode i) = .ok i := by
  cases i <;> rfl

/-- The decoder accepts exactly the well-formed codes (30_encoding R72, R76, R79). -/
theorem exists_decode_iff_wellFormed (w : Code) : (∃ i, decode w = .ok i) ↔ w.wellFormed = true := by
  cases w with
  | ctrl c d => exact ⟨fun _ => rfl, fun _ => ⟨_, rfl⟩⟩
  | index x => exact ⟨fun _ => rfl, fun _ => ⟨_, rfl⟩⟩
  | unknown n v =>
    constructor
    · rintro ⟨i, hi⟩
      cases hi
    · intro hw
      cases hw
  | lane sel =>
    constructor
    · rintro ⟨i, hi⟩
      by_contra hw
      have hge : 22 ≤ sel.toNat := by simpa [Code.wellFormed, Nat.lt_iff_add_one_le] using hw
      rw [decode, decodeLane_of_ge hge] at hi
      cases hi
    · intro hw
      exact exists_decodeLane_of_le (of_decide_eq_true hw)

/-- A rejected code is a lane selector from 22 up or a word of no format, and is rejected as that (30_encoding R76). -/
theorem decode_error_cases {w : Code} {r : Reject} (h : decode w = .error r) :
    (∃ sel, w = .lane sel ∧ 22 ≤ sel.toNat ∧ r = .noSuchLane sel) ∨ (∃ n v, w = .unknown n v ∧ r = .noFormat n v) := by
  cases w with
  | ctrl c d => cases h
  | index x => cases h
  | unknown n v =>
    cases h
    exact .inr ⟨n, v, rfl, rfl⟩
  | lane sel =>
    have hge : 22 ≤ sel.toNat := by
      by_contra hlt
      obtain ⟨i, hi⟩ := exists_decodeLane_of_le (sel := sel) (by omega)
      rw [decode, hi] at h
      cases h
    rw [decode, decodeLane_of_ge hge] at h
    cases h
    exact .inl ⟨sel, rfl, hge, rfl⟩

/-- Settles O1: each operation's encoded form decodes to it, so that form is one the decoder accepts. -/
theorem decodeOfEncodeIsTheOperation : Obligations.DecodeOfEncodeIsTheOperation :=
  fun i _ => ⟨decode_encode i, (exists_decode_iff_wellFormed _).1 ⟨i, decode_encode i⟩⟩

/-- Settles O2: a lane or index code is the only one of its operation; a control vector comes back but for the bits that RESET
and a cycle without a word ignore. -/
theorem encodeOfDecodeIsTheWord : Obligations.EncodeOfDecodeIsTheWord := by
  refine ⟨fun sel i => encode_of_decodeLane, fun x i h => ?_, fun c d i h => ?_⟩
  · cases h
    rfl
  · cases h
    refine ⟨_, _, encode_decodeCtrl c d, ?_⟩
    cases c.getLsbD 2 <;> cases c.getLsbD 1 <;> simp

/-- Settles O3: accepted are exactly the well-formed codes, and the two ways to be rejected are the two ways to be ill formed. -/
theorem decoderAcceptsExactlyWellFormedWords : Obligations.DecoderAcceptsExactlyWellFormedWords := by
  intro w
  refine ⟨?_, fun r => decode_error_cases⟩
  simp only [instr_wellFormed, and_true]
  exact exists_decode_iff_wellFormed w

/-- Settles O4: the decoder's refusal of such a selector is the refusal of the step that evaluates it. -/
theorem laneSelectorsAbove21AreRefused : Obligations.LaneSelectorsAbove21AreRefused := by
  intro sel hsel
  have hdec : decode (.lane sel) = .error (.noSuchLane sel) := decodeLane_of_ge hsel
  refine ⟨hdec, fun s rest hs => ?_⟩
  rw [step_of_script hs]
  simp only [runStimulus, runCode, hdec]

/-- The mnemonics of the rows of the opcode table that take a code. -/
def takers (w : Code) : List String := (opcodeTable.filter (·.takes w)).map OpRow.mnemonic

/-- One row takes a control vector, whatever its in_data: the row of the operation it selects (30_encoding R71). -/
theorem takers_ctrl (c : BitVec 3) (d : DataIn) : takers (.ctrl c d) = [(decodeCtrl c d).mnemonic] := by
  obtain rfl | rfl | rfl | rfl | rfl | rfl | rfl | rfl := ctrl_cases c <;> rfl

/-- One row takes an index: its mask is 0 (30_encoding R79). -/
theorem takers_index (x : Index) : takers (.index x) = ["LUT"] := by
  simp [takers, opcodeTable, ctrlRows, laneRowsLow, laneRowsHigh, indexRows, OpRow.takes, Code.bits]

/-- One row takes the encoded form of an operation: its own. -/
theorem takers_encode (i : Instr) : takers (encode i) = [i.mnemonic] := by
  cases i
  case lut x => exact takers_index x
  all_goals rfl

theorem takers_of_decode {w : Code} {i : Instr} (h : decode w = .ok i) : takers w = [i.mnemonic] := by
  cases w with
  | ctrl c d =>
    cases h
    exact takers_ctrl c d
  | index x =>
    cases h
    exact takers_index x
  | unknown n v => cases h
  | lane sel => rw [← encode_of_decodeLane h, takers_encode]

/-- Settles O5: among the rows of the table, those that take the code are one, of the mnemonic of its operation. -/
theorem everyWellFormedWordFitsOneTableRow : Obligations.EveryWellFormedWordFitsOneTableRow := by
  intro w i h
  obtain ⟨r, hr, hmn⟩ := List.map_eq_singleton_iff.1 (takers_of_decode h)
  have mem_iff (q : OpRow) : q ∈ opcodeTable.filter (·.takes w) ↔ q = r := by rw [hr, List.mem_singleton]
  obtain ⟨hmem, htakes⟩ := List.mem_filter.1 ((mem_iff r).2 rfl)
  exact ⟨r, hmem, htakes, hmn, fun q hq hqt => (mem_iff q).1 (List.mem_filter.2 ⟨hq, hqt⟩)⟩

/-- Settles O6: each of these words is decoded bit by bit. -/
theorem wordsOfTheSpecDecodeAsWritten : Obligations.WordsOfTheSpecDecodeAsWritten :=
  ⟨rfl, rfl, rfl, rfl, rfl, rfl, rfl, rfl, rfl, rfl⟩

end Sys2Proof
end

section
/-! SUPPORT. A table word placed as the host's next move (30_encoding R70; log entry 11). -/

namespace Sys2Proof

open Sys2Proof.Machine

theorem decodeTableWord_of_ok {nbits w : Nat} {i : Instr} (h : decode (tableCode nbits w) = .ok i) :
    decodeTableWord nbits w = some i := by
  simp only [decodeTableWord, h]

theorem decodeTableWord_of_error {nbits w : Nat} {r : Reject} (h : decode (tableCode nbits w) = .error r) :
    decodeTableWord nbits w = none := by
  simp only [decodeTableWord, h]

theorem decode_of_decodeTableWord {nbits w : Nat} {i : Instr} (h : decodeTableWord nbits w = some i) :
    decode (tableCode nbits w) = .ok i := by
  cases hd : decode (tableCode nbits w) with
  | ok j => rw [← Option.some.inj ((decodeTableWord_of_ok hd).symm.trans h)]
  | error r => rw [decodeTableWord_of_error hd] at h; cases h

/-- A code that is no control vector is evaluated by itself. -/
theorem moveOf_of_not_ctrl {w : Code} (h : ∀ c d, w ≠ .ctrl c d) : moveOf w = .evaluate w := by
  cases w with
  | ctrl c d => exact absurd rfl (h c d)
  | lane sel => rfl
  | index x => rfl
  | unknown n v => rfl

/-- The step after placing a table word makes its move on the state as it was. -/
theorem step_withFetchWord (s : State) (nbits w : Nat) :
    step (s.withFetchWord nbits w) =
      runStimulus (moveOf (tableCode nbits w)) s.script (s.withFetchWord nbits w) :=
  step_of_script rfl

theorem step_withFetchWord_of_not_ctrl {nbits w : Nat} (h : ∀ c d, tableCode nbits w ≠ .ctrl c d) (s : State) :
    step (s.withFetchWord nbits w) = runCode (tableCode nbits w) s := by
  rw [step_withFetchWord, moveOf_of_not_ctrl h]
  rfl

theorem step_withFetchWord_of_ctrl {nbits w : Nat} {c : BitVec 3} {d : DataIn} (h : tableCode nbits w = .ctrl c d)
    (s : State) : step (s.withFetchWord nbits w) =
      exec (decodeCtrl c d) (s.drive ⟨c.getLsbD 2, c.getLsbD 1, c.getLsbD 0, d⟩) := by
  rw [step_withFetchWord, h]
  calc runDrive (.ofPins (c.getLsbD 2) (c.getLsbD 1) (c.getLsbD 0) d) s
    _ = runPins ⟨c.getLsbD 2, c.getLsbD 1, c.getLsbD 0, d⟩ s := runDrive_ofPins _ _ _ _ s
    _ = _ := by rw [runPins, ctrl_of_bits]

/-- Settles O8: a control vector is driven on pins that spell it, and any other code is evaluated, or refused, as it stands. -/
theorem placedTableWordIsTheNextOperation : Obligations.PlacedTableWordIsTheNextOperation := by
  intro s nbits w
  refine ⟨fun c d h => ?_, fun i hc h => ?_, fun r h => ?_⟩
  · exact ⟨decodeTableWord_of_ok (by rw [h]; rfl), step_withFetchWord_of_ctrl h s⟩
  · rw [step_withFetchWord_of_not_ctrl hc, runCode_of_decode (decode_of_decodeTableWord h)]
  · have hc : ∀ c d, tableCode nbits w ≠ .ctrl c d := by
      intro c d he
      rw [he] at h
      cases h
    refine ⟨decodeTableWord_of_error h, ?_⟩
    rw [step_withFetchWord_of_not_ctrl hc]
    simp only [runCode, h]

end Sys2Proof
end

section
/-! SUPPORT. The five window shapes as expressions on integers, and the lane map (30_encoding R77, R78). -/

namespace Sys2Proof.Machine

/-- The shift by k of a byte leaves 8 - k bits, so cutting it to them loses nothing (00_scope R9). -/
theorem byte_shiftRight_mod (x : Byte) {k n : Nat} (h : k + n = 8) : x.toNat >>> k % 2 ^ n = x.toNat >>> k := by
  refine Nat.mod_eq_of_lt ?_
  rw [Nat.shiftRight_eq_div_pow, Nat.div_lt_iff_lt_mul (by positivity), ← pow_add, Nat.add_comm, h]
  exact x.isLt

/-- The n low bits of a byte are what the mask of n ones leaves of it. -/
theorem byte_mod_two_pow (x : Byte) (n : Nat) : x.toNat >>> 0 % 2 ^ n = x.toNat &&& (2 ^ n - 1) :=
  (Nat.and_two_pow_sub_one_eq_mod _ _).symm

theorem windowA_toNat (x : Byte) : (windowA x).toNat = exprA x := by
  rw [windowA, BitVec.extractLsb'_toNat, byte_shiftRight_mod x rfl, exprA]

theorem windowB_toNat (x y : Byte) : (windowB x y).toNat = exprB x y := by
  rw [windowB, BitVec.toNat_append, BitVec.extractLsb'_toNat, BitVec.extractLsb'_toNat, byte_mod_two_pow,
    byte_shiftRight_mod y rfl]
  rfl

theorem windowC_toNat (y z : Byte) : (windowC y z).toNat = exprC y z := by
  rw [windowC, BitVec.toNat_append, BitVec.extractLsb'_toNat, BitVec.extractLsb'_toNat, byte_mod_two_pow,
    byte_shiftRight_mod z rfl]
  rfl

theorem windowD_toNat (z : Byte) : (windowD z).toNat = exprD z := by
  rw [windowD, BitVec.extractLsb'_toNat, byte_mod_two_pow]
  rfl

theorem windowT_toNat (x : Byte) : (windowT x).toNat = exprT x := by
  rw [windowT, BitVec.toNat_append, BitVec.extractLsb'_toNat, byte_mod_two_pow]
  exact Nat.or_zero _

/-- A value that a window index has is below 64. -/
theorem eq_and_lt_of_index {i : Index} {e : Nat} (h : i.toNat = e) : i.toNat = e ∧ e < 64 :=
  ⟨h, h ▸ i.isLt⟩

/-- Bit k of the n bits of a byte from bit i up. -/
theorem getLsbD_slice (x : Byte) (i : Nat) {n k : Nat} (hk : k < n) :
    (x.extractLsb' i n).getLsbD k = x.getLsbD (k + i) := by
  simp [hk, Nat.add_comm]

/-- Bit k of the n low bits of a byte above another field. -/
theorem getLsbD_low_bits_append (x : Byte) (n : Nat) {m : Nat} (b : BitVec m) {k : Nat} (hk : k < n + m) :
    (x.extractLsb' 0 n ++ b).getLsbD k = if k < m then b.getLsbD k else x.getLsbD (k - m) := by
  rw [BitVec.getLsbD_append]
  exact ite_congr rfl (fun _ => rfl) fun _ => getLsbD_slice x 0 (by omega)

/-- Bit k of each window shape, as the concatenation of bit slices gives it (30_encoding R77). -/
theorem window_bits (x y : Byte) (k : Fin 6) :
    (windowA x).getLsbD k = x.getLsbD (k + 2) ∧ (windowD x).getLsbD k = x.getLsbD k ∧
    (windowB x y).getLsbD k = (if k.val < 4 then y.getLsbD (k + 4) else x.getLsbD (k - 4)) ∧
    (windowC x y).getLsbD k = (if k.val < 2 then y.getLsbD (k + 6) else x.getLsbD (k - 2)) ∧
    (windowT x).getLsbD k = (if k.val < 4 then false else x.getLsbD (k - 4)) := by
  refine ⟨getLsbD_slice x 2 k.isLt, getLsbD_slice x 0 k.isLt, ?_, ?_, ?_⟩
  · exact (getLsbD_low_bits_append x 2 _ k.isLt).trans (ite_congr rfl (getLsbD_slice y 4) fun _ => rfl)
  · exact (getLsbD_low_bits_append x 4 _ k.isLt).trans (ite_congr rfl (getLsbD_slice y 6) fun _ => rfl)
  · exact (getLsbD_low_bits_append x 2 _ k.isLt).trans (ite_congr rfl (fun _ => BitVec.getLsbD_zero) fun _ => rfl)

/-- Settles O15: a right shift of a byte leaves the bits that are taken from its top, a mask those that are taken from its foot,
and appending is a left shift and an or. -/
theorem windowShapesAgreeWithTheirExpressions : Obligations.WindowShapesAgreeWithTheirExpressions :=
  fun x y => ⟨eq_and_lt_of_index (windowA_toNat x), eq_and_lt_of_index (windowB_toNat x y),
    eq_and_lt_of_index (windowC_toNat x y), eq_and_lt_of_index (windowD_toNat x),
    eq_and_lt_of_index (windowT_toNat x), window_bits x y⟩

/-- Settles O17: each of the 22 entries of WIN is the entry of the lane map, whose group and position are computed from j. -/
theorem windowsFollowTheLaneMap : Obligations.WindowsFollowTheLaneMap := by
  intro d j
  fin_cases j <;> rfl

end Sys2Proof.Machine
end

section
/-! SUPPORT. The characters on out_data (30_encoding R86, 41_alphabet_lut R145). -/

namespace Sys2Proof.Machine

/-- `+`, `/` and `=` are not of the alphabet (41_alphabet_lut R145). -/
theorem ne_of_inAlphabet {c : CharCode} (h : inAlphabet c) : c ≠ 0x2B ∧ c ≠ 0x2F ∧ c ≠ 0x3D := by
  revert c
  decide

/-- Settles O27: with out_valid = 1 the fields of out_data are the characters of a valid S2, which the invariant keeps in the
alphabet. -/
theorem validOutputStaysInTheAlphabet : Obligations.ValidOutputStaysInTheAlphabet := by
  intro s hs hi hv
  obtain ⟨-, h2⟩ := (alphabetInv_iff s).1 hs hi
  obtain ⟨hchars, htail⟩ := h2 ((outValid_iff s).1 hv).2
  have hfield (j : Fin 22) : outChar (outData s) j = s.regs.s2Char[j] := by
    rw [outData_of_outValid hv, outChar_packChars]
  refine ⟨fun j => ?_, ?_⟩
  · rw [hfield j]
    exact ⟨hchars j, ne_of_inAlphabet (hchars j)⟩
  · exact (hfield 21).symm ▸ htail

end Sys2Proof.Machine
end

section
/-! SUPPORT. Hex literals: a text of digits is read as the bytes it writes, b[0] first (30_encoding R82). -/

namespace Sys2Proof.Machine

/-- The digit of a nibble is read as that nibble. -/
theorem hexDigit_hexChar (n : BitVec 4) : hexDigit (hexChar n) = some n := by
  revert n
  decide

/-- A byte is its high nibble above its low nibble. -/
theorem nibbles_append (b : Byte) : b.extractLsb' 4 4 ++ b.extractLsb' 0 4 = b := by
  revert b
  decide

theorem hexBytes_hexText (bs : List Byte) : hexBytes (hexText bs) = some bs := by
  induction bs with
  | nil => rfl
  | cons b bs ih => simp only [hexText, hexBytes, hexDigit_hexChar, ih, nibbles_append]

theorem length_hexText (bs : List Byte) : (hexText bs).length = 2 * bs.length := by
  induction bs with
  | nil => rfl
  | cons b bs ih =>
    simp only [hexText, List.length_cons, ih]
    omega

theorem readHex32_hexText {bs : List Byte} (h : bs.length = 16) :
    readHex32 (hexText bs) = .ok (BitVec.ofNat 128 (busWord bs)) := by
  simp only [readHex32, length_hexText, h, hexBytes_hexText, if_true]

theorem busWord_lt (bs : List Byte) : busWord bs < 256 ^ bs.length := by
  induction bs with
  | nil => exact Nat.one_pos
  | cons b bs ih =>
    have hb := b.isLt
    simp only [busWord, List.length_cons, pow_succ]
    omega

/-- Byte i of the bus word is the i-th of its bytes (30_encoding R73). -/
theorem busWord_div_mod (bs : List Byte) :
    ∀ (i : Nat) (h : i < bs.length), busWord bs / 256 ^ i % 256 = bs[i].toNat := by
  induction bs with
  | nil => exact fun i h => absurd h (Nat.not_lt_zero i)
  | cons b bs ih =>
    intro i h
    have hb := b.isLt
    cases i with
    | zero =>
      simp only [busWord, pow_zero, Nat.div_one, List.getElem_cons_zero]
      omega
    | succ i =>
      have hi : i < bs.length := Nat.lt_of_succ_lt_succ h
      have hdiv : busWord (b :: bs) / 256 = busWord bs := by
        simp only [busWord]
        omega
      calc busWord (b :: bs) / 256 ^ (i + 1) % 256
        _ = busWord (b :: bs) / 256 / 256 ^ i % 256 := by rw [Nat.div_div_eq_div_mul, ← Nat.pow_succ']
        _ = bs[i].toNat := by rw [hdiv, ih i hi]

theorem inByte_toNat (d : DataIn) (i : Nat) : (inByte d i).toNat = d.toNat / 256 ^ i % 256 := by
  rw [inByte, BitVec.extractLsb'_toNat, Nat.shiftRight_eq_div_pow, Nat.pow_mul]

theorem inByte_busWord {bs : List Byte} (h : bs.length = 16) (i : Nat) (hi : i < bs.length) :
    inByte (BitVec.ofNat 128 (busWord bs)) i = bs[i] := by
  have hlt : busWord bs < 2 ^ 128 := by
    have hw := busWord_lt bs
    rw [h] at hw
    exact hw
  refine BitVec.eq_of_toNat_eq ?_
  rw [inByte_toNat, BitVec.toNat_ofNat, Nat.mod_eq_of_lt hlt, busWord_div_mod bs i hi]

/-- Settles O56: the two digits of each byte are read as that byte, and the i-th byte read stands at byte i of the bus word. -/
theorem hexLiteralsListByteZeroFirst : Obligations.HexLiteralsListByteZeroFirst := by
  intro bs h
  refine ⟨_, readHex32_hexText h, fun i => ?_⟩
  have hi : i.val < bs.length := by omega
  rw [inByte_busWord h i.val hi, List.getElem?_eq_getElem hi]

end Sys2Proof.Machine
end

section
/-! SUPPORT. The reader of stimulus scripts, line by line: what it makes of the words of a line, and what it refuses
(30_encoding R80, R81, R83). -/

namespace Sys2Proof.Machine

/-! ### The words of a line with one operand -/

theorem beforeComment_append {p : List Char} (h : ';' ∉ p) (y : List Char) :
    beforeComment (p ++ y) = p ++ beforeComment y := by
  induction p with
  | nil => rfl
  | cons c p ih =>
    obtain ⟨hc, hp⟩ := not_or.1 (mt List.mem_cons.2 h)
    simp only [List.cons_append, beforeComment, ih hp, if_neg (Ne.symm hc)]

/-- What stands before the first blank of a line is its first word. -/
theorem wordsOf_append_blank {w : List Char} (hw : w ≠ []) (h : ∀ c ∈ w, isBlank c = false) (y : List Char) :
    wordsOf (w ++ ' ' :: y) = w :: wordsOf y := by
  have hblank : wordsOf (' ' :: y) = wordsOf y := by simp [wordsOf, isBlank]
  induction w with
  | nil => exact absurd rfl hw
  | cons c w ih =>
    obtain ⟨hc, hws⟩ := List.forall_mem_cons.1 h
    cases w with
    | nil =>
      have hb : isBlank ' ' = true := rfl
      rw [List.cons_append, List.nil_append, wordsOf, hblank]
      simp only [hc, hb, if_true, if_false, Bool.false_eq_true]
    | cons d w =>
      have hd := hws d List.mem_cons_self
      have ih := ih (List.cons_ne_nil d w) hws
      rw [List.cons_append] at ih
      rw [List.cons_append, List.cons_append, wordsOf, ih]
      simp only [hc, hd, if_false, Bool.false_eq_true]

/-- A mnemonic, a blank and one operand are the two words of their line. -/
theorem words_of_operand_line {p op x : List Char} (hp : p = op ++ [' ']) (hop : op ≠ [])
    (hb : ∀ c ∈ op, isBlank c = false) (hc : ';' ∉ p) (hx : wordsOf (beforeComment x) = [x]) :
    wordsOf (beforeComment (p ++ x)) = [op, x] := by
  rw [beforeComment_append hc, hp, List.append_assoc, List.singleton_append, wordsOf_append_blank hop hb, hx]

/-! ### One line, by its mnemonic -/

section
variable {line : List Char} {args : List (List Char)}

theorem readLine_reset (h : wordsOf (beforeComment line) = "RESET".toList :: args) :
    readLine line = plainLine args (.cycle lineReset) := by
  simp [readLine, h]

theorem readLine_idle (h : wordsOf (beforeComment line) = "IDLE".toList :: args) :
    readLine line = plainLine args (.cycle lineIdle) := by
  simp [readLine, h]

theorem readLine_pop (h : wordsOf (beforeComment line) = "POP".toList :: args) :
    readLine line = plainLine args (.cycle linePop) := by
  simp [readLine, h]

theorem readLine_push (h : wordsOf (beforeComment line) = "PUSH".toList :: args) :
    readLine line = wordLine args fun d => .cycle (linePush d) := by
  simp [readLine, h]

theorem readLine_pushpop (h : wordsOf (beforeComment line) = "PUSHPOP".toList :: args) :
    readLine line = wordLine args fun d => .cycle (linePushpop d) := by
  simp [readLine, h]

theorem readLine_pushw (h : wordsOf (beforeComment line) = "PUSHW".toList :: args) :
    readLine line = wordLine args .pushw := by
  simp [readLine, h]

theorem readLine_encode (h : wordsOf (beforeComment line) = "ENCODE".toList :: args) :
    readLine line = wordLine args .encode := by
  simp [readLine, h]

/-- A line whose first word is no mnemonic of 30_encoding R80. -/
theorem readLine_unknown {op : List Char} (h : wordsOf (beforeComment line) = op :: args)
    (hop : op ∉ ["RESET".toList, "IDLE".toList, "POP".toList, "PUSH".toList, "PUSHPOP".toList, "PUSHW".toList,
      "DRAIN".toList, "ENCODE".toList]) : readLine line = .error .unknownMnemonic := by
  simp at hop
  simp [readLine, h, hop]

end

theorem plainLine_of_ne_nil {args : List (List Char)} (h : args ≠ []) (i : Stimulus) :
    plainLine args i = .error .unexpectedOperand := by
  cases args with
  | nil => exact absurd rfl h
  | cons a as => rfl

theorem wordLine_of_ok {x : List Char} {d : DataIn} (h : readHex32 x = .ok d) (f : DataIn → Stimulus) :
    wordLine [x] f = .ok (some (f d)) := by
  simp only [wordLine, h]

theorem wordLine_of_error {x : List Char} {e : ScriptError} (h : readHex32 x = .error e) (f : DataIn → Stimulus) :
    wordLine [x] f = .error e := by
  simp only [wordLine, h]

/-! ### What is refused -/

/-- The characters of a literal that is read are digits. -/
theorem hexDigit_ne_none_of_hexBytes (x : List Char) :
    ∀ bs, hexBytes x = some bs → ∀ c ∈ x, hexDigit c ≠ none := by
  induction x using hexBytes.induct with
  | case1 => exact fun _ _ c hc => absurd hc List.not_mem_nil
  | case2 c => exact fun _ h => by cases h
  | case3 hi lo rest h l bs hrest hlo hhi ih =>
    intro _ _
    simp only [List.forall_mem_cons, hhi, hlo]
    exact ⟨by simp, by simp, ih bs hrest⟩
  | case4 hi lo rest hbad =>
    intro bs h
    rw [hexBytes] at h
    split at h
    next hhi hlo hrest => exact (hbad _ _ _ hhi hlo hrest).elim
    next => cases h

/-- A hex32 is 32 characters, each a hexadecimal digit (30_encoding R80). -/
theorem readHex32_of_bad {x : List Char} (h : x.length ≠ 32 ∨ ∃ c ∈ x, hexDigit c = none) :
    readHex32 x = .error .badHex := by
  by_cases hlen : x.length = 32
  · obtain ⟨c, hc, hbad⟩ := h.resolve_left (not_not_intro hlen)
    cases hx : hexBytes x with
    | some bs => exact absurd hbad (hexDigit_ne_none_of_hexBytes x bs hx c hc)
    | none => simp only [readHex32, hlen, hx, if_true]
  · simp only [readHex32, hlen, if_false]

/-- The first refused line of a script refuses it. -/
theorem readScript_of_refused_line {lines : List (List Char)} (h : ∃ line ∈ lines, ∃ e, readLine line = .error e) :
    ∃ e, readScript lines = .error e := by
  induction lines with
  | nil => simp at h
  | cons l ls ih =>
    cases hl : readLine l with
    | error e => exact ⟨e, by simp only [readScript, hl]⟩
    | ok o =>
      have hrest : ∃ line ∈ ls, ∃ e, readLine line = .error e := by simpa [hl] using h
      obtain ⟨e, he⟩ := ih hrest
      cases o with
      | none => exact ⟨e, by simp only [readScript, hl, he]⟩
      | some i => exact ⟨e, by simp only [readScript, hl, he]⟩

theorem loadScript_of_error {lines : List (List Char)} {e : ScriptError} (h : readScript lines = .error e) (s : State) :
    loadScript lines s = .refused (.badScript e) := by
  simp only [loadScript, h]

/-- Settles O57: the first word of a line picks what its operands must be, and the first refused line refuses the script. -/
theorem scriptReaderRefusesBrokenLines : Obligations.ScriptReaderRefusesBrokenLines := by
  refine ⟨fun line op args hw => ⟨fun hop => ?_, fun hop hargs => ?_, fun hop hargs => ?_, fun x hop hargs hx => ?_⟩,
    fun lines s h => ?_⟩
  · exact readLine_unknown hw hop
  · simp only [List.mem_cons, List.not_mem_nil, or_false] at hop
    obtain rfl | rfl | rfl := hop
    · exact (readLine_reset hw).trans (plainLine_of_ne_nil hargs _)
    · exact (readLine_idle hw).trans (plainLine_of_ne_nil hargs _)
    · exact (readLine_pop hw).trans (plainLine_of_ne_nil hargs _)
  · subst hargs
    simp only [List.mem_cons, List.not_mem_nil, or_false] at hop
    obtain rfl | rfl := hop
    · exact readLine_push hw
    · exact readLine_pushpop hw
  · subst hargs
    have herr := readHex32_of_bad hx
    simp only [List.mem_cons, List.not_mem_nil, or_false] at hop
    obtain rfl | rfl | rfl | rfl := hop
    · exact (readLine_push hw).trans (wordLine_of_error herr _)
    · exact (readLine_pushpop hw).trans (wordLine_of_error herr _)
    · exact (readLine_pushw hw).trans (wordLine_of_error herr _)
    · exact (readLine_encode hw).trans (wordLine_of_error herr _)
  · obtain ⟨e, he⟩ := readScript_of_refused_line h
    exact ⟨e, loadScript_of_error he s⟩

end Sys2Proof.Machine
end

section
/-! SUPPORT. The lines of a stimulus program as steps, and the pseudo lines as runs of them (30_encoding R80, R81, R84). -/

namespace Sys2Proof.Machine

/-! ### Single lines -/

section
variable {x : List Char} {d : DataIn} (hx : readHex32 x = .ok d) (hw : wordsOf (beforeComment x) = [x])
include hx hw

theorem readLine_push_hex32 : readLine ("PUSH ".toList ++ x) = .ok (some (.cycle (linePush d))) :=
  (readLine_push (words_of_operand_line (by decide) (by decide) (by simp [isBlank]) (by decide) hw)).trans (wordLine_of_ok hx _)

theorem readLine_pushpop_hex32 : readLine ("PUSHPOP ".toList ++ x) = .ok (some (.cycle (linePushpop d))) :=
  (readLine_pushpop (words_of_operand_line (by decide) (by decide) (by simp [isBlank]) (by decide) hw)).trans
    (wordLine_of_ok hx _)

theorem readLine_pushw_hex32 : readLine ("PUSHW ".toList ++ x) = .ok (some (.pushw d)) :=
  (readLine_pushw (words_of_operand_line (by decide) (by decide) (by simp [isBlank]) (by decide) hw)).trans (wordLine_of_ok hx _)

theorem readLine_encode_hex32 : readLine ("ENCODE ".toList ++ x) = .ok (some (.encode d)) :=
  (readLine_encode (words_of_operand_line (by decide) (by decide) (by simp [isBlank]) (by decide) hw)).trans
    (wordLine_of_ok hx _)

end

/-- Settles O55: the pins of a line are sampled as driven, and their control vector selects the line's operation. -/
theorem stimulusLinesRunTheirOperations : Obligations.StimulusLinesRunTheirOperations := by
  intro s h rest
  refine ⟨fun hs => ?_, fun hs => ?_, fun hs => ?_, fun hs => ?_, fun hs => ?_, by decide, by decide, by decide,
    fun x d hx hw => ⟨readLine_push_hex32 hx hw, readLine_pushpop_hex32 hx hw⟩⟩
  · exact (step_of_script hs).trans (runDrive_lineReset _)
  · exact (step_of_script hs).trans (runDrive_lineIdle _)
  · exact (step_of_script hs).trans (runDrive_linePop _)
  · exact (step_of_script hs).trans (runDrive_linePush h _)
  · exact (step_of_script hs).trans (runDrive_linePushpop h _)

/-! ### Runs of several steps -/

theorem stepN_succ_of_step {s t : State} (h : step s = .next t) (n : Nat) : stepN (n + 1) s = stepN n t := by
  simp only [stepN, h]

theorem stepN_one (s : State) : stepN 1 s = step s := by
  simp only [stepN]
  cases step s <;> rfl

/-- Where a cycle may run it completes on the sampled pins. -/
theorem runPins_completes_of_run {p : Ports} {s : State} (h : (s.initialised || p.rst) = true) :
    ∃ t, runPins p s = .next t ∧ t.regs = stepRegs p s.regs ∧
      CycleFrame s t p (inFire (s.drive p)) (outFire (s.drive p)) := by
  rw [runPins_eq]
  exact clockCycle_drive s p h

/-- After a reset every cycle may run. -/
theorem runPins_completes (p : Ports) {s : State} (hi : s.initialised = true) :
    ∃ t, runPins p s = .next t ∧ t.regs = stepRegs p s.regs ∧
      CycleFrame s t p (inFire (s.drive p)) (outFire (s.drive p)) :=
  runPins_completes_of_run (by simp [hi])

theorem step_line {s : State} {r v o : Bool} {d : DataIn} {rest : List Stimulus}
    (hs : s.script = .cycle (.ofPins r v o d) :: rest) : step s = runPins ⟨r, v, o, d⟩ { s with script := rest } :=
  (step_of_script hs).trans (runDrive_ofPins r v o d _)

/-! ### ENCODE -/

theorem step_encode {s : State} {h : DataIn} {rest : List Stimulus} (hd : drained s = true)
    (hs : s.script = .encode h :: rest) :
    step s = runPins ⟨false, true, false, h⟩ { s with script := .cycle lineIdle :: .cycle linePop :: rest } := by
  rw [step_of_script hs, runStimulus, runEncode, if_pos hd]
  exact runDrive_ofPins _ _ _ _ _

/-- The three cycles of ENCODE h: h is accepted into S1, advances into S2, and is taken. -/
theorem encode_run {s : State} {h : DataIn} {rest : List Stimulus} (hd : drained s = true)
    (hs : s.script = .encode h :: rest) (hi : s.initialised = true) :
    ∃ t, stepN 3 s = .next t ∧ t.script = rest ∧ drained t = true ∧ t.accepted = s.accepted ++ [h] ∧
      t.delivered = s.delivered ++ [encWord h] ∧ t.observation = s.observation ++ [⟨s.cycle + 2, encWord h⟩] := by
  obtain ⟨h1, h2⟩ : s.regs.s1Valid = false ∧ s.regs.s2Valid = false := by simpa [drained] using hd
  obtain ⟨a, ha, har, haf⟩ := runPins_completes ⟨false, true, false, h⟩
    (s := { s with script := .cycle lineIdle :: .cycle linePop :: rest }) hi
  have hra : a.regs = ⟨true, win h, false, s.regs.s2Char⟩ := by simp [har, stepRegs, h1, h2]
  obtain ⟨b, hb, hbr, hbf⟩ := runPins_completes ⟨false, false, false, 0⟩
    (s := { a with script := .cycle linePop :: rest }) haf.initialised
  have hrb : b.regs = ⟨false, win h, true, enc h⟩ := by simp [hbr, hra, stepRegs, enc]
  obtain ⟨c, hc, hcr, hcf⟩ := runPins_completes ⟨false, false, true, 0⟩
    (s := { b with script := rest }) hbf.initialised
  have hrc : c.regs = ⟨false, win h, false, enc h⟩ := by simp [hcr, hrb, stepRegs]
  refine ⟨c, ?_, hcf.script, by simp [drained, hrc], ?_, ?_, ?_⟩
  · rw [stepN_succ_of_step ((step_encode hd hs).trans ha), stepN_succ_of_step ((step_line haf.script).trans hb),
      stepN_succ_of_step ((step_line hbf.script).trans hc), stepN]
  · simp [hcf.accepted, hbf.accepted, haf.accepted, inFire, inReady, h1]
  · simp [hcf.delivered, hbf.delivered, haf.delivered, outFire, outValid, h2, hra, hrb, encWord]
  · simp [hcf.observation, hbf.observation, haf.observation, hbf.cycle, haf.cycle, outFire, outValid, h2, hra, hrb,
      encWord]

/-- Settles O52: the line is read as its word's pseudo line, whose three cycles carry the word through S1 and S2 to the host. -/
theorem encodeLineDeliversTheEncoding : Obligations.EncodeLineDeliversTheEncoding :=
  ⟨fun _ _ => readLine_encode_hex32, fun _ _ _ hd hs =>
    ⟨(step_encode hd hs).trans (runPins_eq _ _), encode_run hd hs⟩⟩

/-! ### PUSHW -/

theorem step_pushw {s : State} {h : DataIn} {rest : List Stimulus} (hs : s.script = .pushw h :: rest) :
    step s = runPins ⟨false, true, false, h⟩ { s with script := pushwRest h rest s } :=
  (step_of_script hs).trans (runDrive_ofPins false true false h _)

/-- With room in the block PUSHW is one cycle, in which its word is accepted. -/
theorem pushw_of_ready {s : State} {h : DataIn} {rest : List Stimulus} (hs : s.script = .pushw h :: rest)
    (hi : s.initialised = true) (hready : inReady (s.drive ⟨false, true, false, h⟩) = true) :
    ∃ t, step s = .next t ∧ t.script = rest ∧ t.accepted = s.accepted ++ [h] := by
  obtain ⟨t, ht, -, hf⟩ := runPins_completes ⟨false, true, false, h⟩ (s := { s with script := pushwRest h rest s }) hi
  have hfire : inFire ((({ s with script := pushwRest h rest s } : State)).drive ⟨false, true, false, h⟩) = true := hready
  refine ⟨t, (step_pushw hs).trans ht, hf.script.trans (if_pos hready), ?_⟩
  rw [hf.accepted, hfire]
  rfl

/-- With both stages full and nothing taken, a cycle keeps every register (42_stream_ops R162). -/
theorem stepRegs_of_full {p : Ports} {r : Regs} (hr : p.rst = false) (ho : p.outReady = false)
    (h1 : r.s1Valid = true) (h2 : r.s2Valid = true) : stepRegs p r = r := by
  obtain ⟨s1Valid, s1Idx, s2Valid, s2Char⟩ := r
  cases h1
  cases h2
  simp [stepRegs, hr, ho]

/-- With both stages full, a cycle of PUSHW changes nothing that PUSHW, or the block, reads (30_encoding R84). -/
theorem step_pushw_of_full {s : State} {h : DataIn} {rest : List Stimulus} (hs : s.script = .pushw h :: rest)
    (hi : s.initialised = true) (hfull : occupancy s = 2) :
    ∃ t, step s = .next t ∧ t.initialised = true ∧ t.script = .pushw h :: rest ∧ t.regs = s.regs ∧
      t.accepted = s.accepted ∧ t.delivered = s.delivered := by
  obtain ⟨h1, h2⟩ := (occupancy_eq_two_iff s).1 hfull
  have hready : inReady (s.drive ⟨false, true, false, h⟩) = false := (inReady_drive_eq_false_iff s rfl).2 ⟨hfull, rfl⟩
  obtain ⟨t, ht, hr, hf⟩ := runPins_completes ⟨false, true, false, h⟩ (s := { s with script := pushwRest h rest s }) hi
  refine ⟨t, (step_pushw hs).trans ht, hf.initialised, ?_, ?_, ?_, ?_⟩
  · rw [hf.script]
    simp [pushwRest, hready]
  · exact hr.trans (stepRegs_of_full rfl rfl h1 h2)
  · simp [hf.accepted, inFire, inReady, h1, h2]
  · simp [hf.delivered, outFire]

theorem pushw_hangs {h : DataIn} {rest : List Stimulus} (n : Nat) :
    ∀ s : State, s.script = .pushw h :: rest → s.initialised = true → occupancy s = 2 →
      ∃ t, stepN n s = .next t ∧ t.script = .pushw h :: rest ∧ t.regs = s.regs ∧ t.accepted = s.accepted ∧
        t.delivered = s.delivered := by
  induction n with
  | zero => exact fun s hs _ _ => ⟨s, rfl, hs, rfl, rfl, rfl⟩
  | succ n ih =>
    intro s hs hi hfull
    obtain ⟨t, ht, hti, hts, htr, hta, htd⟩ := step_pushw_of_full hs hi hfull
    have hfull' : occupancy t = 2 := by rw [occupancy, htr]; exact hfull
    obtain ⟨u, hu, hus, hur, hua, hud⟩ := ih t hts hti hfull'
    exact ⟨u, (stepN_succ_of_step ht n).trans hu, hus, hur.trans htr, hua.trans hta, hud.trans htd⟩

/-- Settles O54: a cycle of PUSHW has in_ready = 1 below occupancy 2, and at 2 it leaves the state in which it began. -/
theorem pushwHangsWhenBothStagesAreFull : Obligations.PushwHangsWhenBothStagesAreFull := by
  refine ⟨fun _ _ => readLine_pushw_hex32, fun s h rest hs =>
    ⟨(step_pushw hs).trans (runPins_eq _ _), fun hi hroom => ?_, fun hi hfull n => ?_⟩⟩
  · have hready : inReady (s.drive ⟨false, true, false, h⟩) = true := by
      rw [← Bool.not_eq_false, inReady_drive_eq_false_iff s rfl]
      omega
    exact pushw_of_ready hs hi hready
  · obtain ⟨t, ht, hts, htr, hta, htd⟩ := pushw_hangs n s hs hi hfull
    refine ⟨t, ht, hts, htr, hta, htd, (inReady_drive_eq_false_iff t rfl).2 ⟨?_, rfl⟩⟩
    rw [occupancy, htr]
    exact hfull

/-! ### DRAIN -/

theorem step_drain {s : State} {e : Bool} {rest : List Stimulus} (hs : s.script = .drain e :: rest) :
    step s = runPins ⟨false, false, true, 0⟩ { s with script := drainRest e rest s } :=
  (step_of_script hs).trans (runDrive_ofPins false false true 0 _)

theorem drainRest_eq (e : Bool) (rest : List Stimulus) (s : State) :
    drainRest e rest s = if s.regs.s2Valid then .drain false :: rest else if e then rest else .drain true :: rest := by
  simp [drainRest, outValid]

/-- A cycle with rst = 0 and no input transfer leaves the delivered words and the queue together as they were. -/
theorem delivered_append_queue_of_runPins {p : Ports} {s t : State} (h : runPins p s = .next t)
    (hr : p.rst = false) (hf : inFire (s.drive p) = false) :
    t.delivered ++ queue t = s.delivered ++ queue s := by
  rw [runPins_eq, clockCycle_eq_next] at h
  obtain ⟨-, rfl⟩ := h
  calc nextDelivered (s.drive p) ++ queue (s.drive p).edge
    _ = nextDelivered (s.drive p) ++ (if outFire (s.drive p) then (queue (s.drive p)).tail else queue (s.drive p)) := by
      rw [queue_edge (s := s.drive p) hr, hf, if_neg Bool.false_ne_true, List.append_nil]
    _ = s.delivered ++ queue s := nextDelivered_append_queue_left (s := s.drive p) hr

/-- What a run of k POP cycles from `s` to `t` does to all but the registers and the script. -/
structure PopsTo (s t : State) (k : Nat) : Prop where
  run : stepN k s = .next t
  initialised : t.initialised = true
  cycle : t.cycle = s.cycle + k
  accepted : t.accepted = s.accepted
  fifo : t.delivered ++ queue t = s.delivered ++ queue s
  ports : t.ports = ⟨false, false, true, 0⟩

theorem PopsTo.cons {s t u : State} {k : Nat} (h : PopsTo s t 1) (g : PopsTo t u k) : PopsTo s u (k + 1) where
  run := (stepN_succ_of_step ((stepN_one s).symm.trans h.run) k).trans g.run
  initialised := g.initialised
  cycle := by
    rw [g.cycle, h.cycle]
    omega
  accepted := g.accepted.trans h.accepted
  fifo := g.fifo.trans h.fifo
  ports := g.ports

/-- A cycle of DRAIN takes what S2 holds and moves what S1 holds into S2 (42_stream_ops R167). -/
theorem drain_cycle {s : State} {e : Bool} {rest : List Stimulus} (hs : s.script = .drain e :: rest)
    (hi : s.initialised = true) : ∃ t, PopsTo s t 1 ∧ t.script = drainRest e rest s ∧
      t.regs.s1Valid = false ∧ t.regs.s2Valid = s.regs.s1Valid := by
  obtain ⟨t, ht, hregs, hf⟩ := runPins_completes ⟨false, false, true, 0⟩ (s := { s with script := drainRest e rest s }) hi
  have hstep : step s = .next t := (step_drain hs).trans ht
  have hfifo := delivered_append_queue_of_runPins ht rfl rfl
  have hpops : PopsTo s t 1 :=
    { run := (stepN_one s).trans hstep
      initialised := hf.initialised
      cycle := hf.cycle
      accepted := hf.accepted
      fifo := hfifo
      ports := hf.ports }
  exact ⟨t, hpops, hf.script, by simp [hregs, stepRegs], by simp [hregs, stepRegs]⟩

/-- A DRAIN in `s` is off the script after k cycles, and leaves the block drained. -/
def DrainEnds (s : State) (rest : List Stimulus) (k : Nat) : Prop :=
  ∃ t, PopsTo s t k ∧ t.script = rest ∧ drained t = true

theorem DrainEnds.cons {s t : State} {rest : List Stimulus} {k : Nat} (h : PopsTo s t 1) (g : DrainEnds t rest k) :
    DrainEnds s rest (k + 1) := by
  obtain ⟨u, hu, hrest, hd⟩ := g
  exact ⟨u, h.cons hu, hrest, hd⟩

section
variable {s : State} {rest : List Stimulus} (hi : s.initialised = true)
include hi

/-- The second cycle in a row with out_valid = 0. -/
theorem drainEnds_of_seen_empty (hs : s.script = .drain true :: rest) (h1 : s.regs.s1Valid = false)
    (h2 : s.regs.s2Valid = false) : DrainEnds s rest 1 := by
  obtain ⟨t, ht, hscript, ht1, ht2⟩ := drain_cycle hs hi
  refine ⟨t, ht, ?_, ?_⟩
  · rw [hscript, drainRest_eq, h2]
    rfl
  · simp [drained, ht1, ht2, h1]

theorem drainEnds_of_empty (hs : s.script = .drain false :: rest) (h1 : s.regs.s1Valid = false)
    (h2 : s.regs.s2Valid = false) : DrainEnds s rest 2 := by
  obtain ⟨t, ht, hscript, ht1, ht2⟩ := drain_cycle hs hi
  rw [drainRest_eq, h2] at hscript
  exact .cons ht (drainEnds_of_seen_empty ht.initialised hscript ht1 (ht2.trans h1))

theorem drainEnds_of_s2_alone {e : Bool} (hs : s.script = .drain e :: rest) (h1 : s.regs.s1Valid = false)
    (h2 : s.regs.s2Valid = true) : DrainEnds s rest 3 := by
  obtain ⟨t, ht, hscript, ht1, ht2⟩ := drain_cycle hs hi
  rw [drainRest_eq, h2] at hscript
  exact .cons ht (drainEnds_of_empty ht.initialised hscript ht1 (ht2.trans h1))

theorem drainEnds_of_s1 (hs : s.script = .drain false :: rest) (h1 : s.regs.s1Valid = true) : DrainEnds s rest 4 := by
  obtain ⟨t, ht, hscript, ht1, ht2⟩ := drain_cycle hs hi
  have ht2 : t.regs.s2Valid = true := ht2.trans h1
  rw [drainRest_eq] at hscript
  cases h2 : s.regs.s2Valid <;> rw [h2] at hscript <;>
    exact .cons ht (drainEnds_of_s2_alone ht.initialised hscript ht1 ht2)

/-- DRAIN takes 2 cycles in the drained state, 3 with S2 alone full, and 4 with S1 full (30_encoding R84). -/
theorem drain_ends (hs : s.script = .drain false :: rest) : ∃ k, 2 ≤ k ∧ k ≤ 4 ∧ DrainEnds s rest k := by
  cases h1 : s.regs.s1Valid with
  | true => exact ⟨4, by decide, by decide, drainEnds_of_s1 hi hs h1⟩
  | false =>
    cases h2 : s.regs.s2Valid with
    | true => exact ⟨3, by decide, by decide, drainEnds_of_s2_alone hi hs h1 h2⟩
    | false => exact ⟨2, by decide, by decide, drainEnds_of_empty hi hs h1 h2⟩

end

/-- Settles O53: each POP empties one stage, two more cycles see the block empty, and what leaves the queue is delivered. -/
theorem drainLineEndsDrainedWithinFourCycles : Obligations.DrainLineEndsDrainedWithinFourCycles := by
  refine ⟨by decide, fun s e rest hs => ?_, fun s rest hi hs => ?_⟩
  · rw [← drainRest_eq]
    exact (step_drain hs).trans (runPins_eq _ _)
  · obtain ⟨k, hk2, hk4, t, ht, hrest, hd⟩ := drain_ends hi hs
    have hdel : t.delivered = s.delivered ++ queue s := by
      rw [← ht.fifo, queue_of_drained hd, List.append_nil]
    exact ⟨k, t, hk2, hk4, ht.run, hrest, hd, ht.cycle, ht.accepted, hdel, ht.ports⟩

end Sys2Proof.Machine
end

section
/-! SUPPORT. The sampling of the pins, case by case, and the boundary of the model (30_encoding R72, 60_exceptions R201,
70_reset_and_hazards R240). -/

namespace Sys2Proof.Machine

theorem exists_bit_of_clean {l : Level} (h : l ≠ .unclean) : ∃ b, l.bit = some b := by
  cases l with
  | low => exact ⟨false, rfl⟩
  | high => exact ⟨true, rfl⟩
  | unclean => exact absurd rfl h

/-- Every way to drive out_ready but an unclean level and a ready loop gives it a level (70_reset_and_hazards R240). -/
theorem exists_ready_bit {d : ReadyDrive} (hl : d ≠ .level .unclean) (hloop : d ≠ .followInReady) (r v : Bool) (q : Regs) :
    ∃ o, d.bit r v q = .ok o := by
  cases d with
  | level l =>
    obtain ⟨b, hb⟩ := exists_bit_of_clean (l := l) (fun h => hl (h ▸ rfl))
    exact ⟨b, by simp only [ReadyDrive.bit, hb]⟩
  | followInValid => exact ⟨v, rfl⟩
  | followOutValid => exact ⟨!r && q.s2Valid, rfl⟩
  | followInReady => exact absurd rfl hloop

theorem sample_of_unclean_pin {d : Drive} (h : d.rst = .unclean ∨ d.inValid = .unclean) (s : State) :
    sample d s = .error .uncleanControl := by
  obtain h | h := h
  · simp only [sample, h, Level.bit]
  · cases hr : d.rst <;> simp only [sample, hr, h, Level.bit]

section
variable {d : Drive} {s : State} {r v : Bool} (hr : d.rst.bit = some r) (hv : d.inValid.bit = some v)
include hr hv

theorem sample_of_ready_error {e : Refusal} (ho : d.outReady.bit r v s.regs = .error e) : sample d s = .error e := by
  simp only [sample, hr, hv, ho]

variable {o : Bool} (ho : d.outReady.bit r v s.regs = .ok o)
include ho

theorem sample_of_clean_word {x : DataIn} (hx : d.inData = some x) : sample d s = .ok ⟨r, v, o, x⟩ := by
  simp only [sample, hr, hv, ho, hx]

/-- An in_data that is not clean is refused where a transfer would sample it (60_exceptions R201(a)). -/
theorem sample_of_unclean_transfer (hx : d.inData = none) (hf : inFire (s.drive ⟨r, v, o, 0⟩) = true) :
    sample d s = .error .uncleanInData := by
  simp only [sample, hr, hv, ho, hx]
  exact if_pos hf

/-- Where no transfer samples it, the port holds some word (log entry 10). -/
theorem sample_of_unclean_idle_word (hx : d.inData = none) (hf : inFire (s.drive ⟨r, v, o, 0⟩) = false) :
    sample d s = .ok ⟨r, v, o, Config.freeInData s.draws⟩ := by
  simp only [sample, hr, hv, ho, hx]
  exact if_neg (Bool.not_eq_true _ ▸ hf)

end

/-- The registers after a cycle with no input transfer do not depend on in_data (42_stream_ops R163). -/
theorem stepRegs_eq_of_not_inFire {s : State} {r v o : Bool} (hf : inFire (s.drive ⟨r, v, o, 0⟩) = false) (x y : DataIn) :
    stepRegs ⟨r, v, o, x⟩ s.regs = stepRegs ⟨r, v, o, y⟩ s.regs := by
  cases r with
  | true => rfl
  | false =>
    have hfire : (v && (!s.regs.s1Valid || !s.regs.s2Valid || o)) = false := hf
    simp [stepRegs, hfire]

theorem step_cycle {s : State} {d : Drive} {rest : List Stimulus} (hs : s.script = .cycle d :: rest) :
    step s = runDrive d { s with script := rest } :=
  step_of_script hs

theorem runDrive_of_sample_error {d : Drive} {s : State} {e : Refusal} (h : sample d s = .error e) :
    runDrive d s = .refused e := by
  simp only [runDrive, h]

section
variable {s : State} {d : Drive} {rest : List Stimulus} (hs : s.script = .cycle d :: rest)
include hs

theorem step_of_sample_error {e : Refusal} (h : sample d { s with script := rest } = .error e) : step s = .refused e :=
  (step_cycle hs).trans (runDrive_of_sample_error h)

theorem step_of_sample {p : Ports} (h : sample d { s with script := rest } = .ok p) :
    step s = runPins p { s with script := rest } :=
  (step_cycle hs).trans (runDrive_of_sample h)

/-- With rst and in_valid clean, what is wrong with out_ready names the refusal. -/
theorem step_of_ready_error {e : Refusal} (hr : d.rst ≠ .unclean) (hv : d.inValid ≠ .unclean)
    (ho : ∀ r v, d.outReady.bit r v s.regs = .error e) : step s = .refused e := by
  obtain ⟨r, hr⟩ := exists_bit_of_clean hr
  obtain ⟨v, hv⟩ := exists_bit_of_clean hv
  exact step_of_sample_error hs (sample_of_ready_error hr hv (ho r v))

variable {r v : Bool} (hr : d.rst.bit = some r) (hv : d.inValid.bit = some v)
include hr hv

/-- With an in_data that is not clean and no transfer, the cycle runs as with any clean in_data. -/
theorem step_of_unclean_idle_word {o : Bool} (ho : d.outReady.bit r v s.regs = .ok o) (hx : d.inData = none)
    (hf : inFire (s.drive ⟨r, v, o, 0⟩) = false) (hrun : (s.initialised || r) = true) (x : DataIn) :
    ∃ t, step s = .next t ∧ t.regs = stepRegs ⟨r, v, o, x⟩ s.regs ∧ t.accepted = if r then [] else s.accepted := by
  obtain ⟨t, ht, hregs, hframe⟩ :=
    runPins_completes_of_run (p := ⟨r, v, o, Config.freeInData s.draws⟩) (s := { s with script := rest }) hrun
  have hfire : inFire (({ s with script := rest } : State).drive ⟨r, v, o, Config.freeInData s.draws⟩) = false := hf
  refine ⟨t, ?_, hregs.trans (stepRegs_eq_of_not_inFire hf _ x), ?_⟩
  · rw [step_of_sample hs (sample_of_unclean_idle_word hr hv ho hx hf), ht]
  · rw [hframe.accepted, hfire]
    rfl

theorem step_of_clean_word {o : Bool} (ho : d.outReady.bit r v s.regs = .ok o) {x : DataIn} (hx : d.inData = some x) :
    step s = runPins ⟨r, v, o, x⟩ { s with script := rest } :=
  step_of_sample hs (sample_of_clean_word hr hv ho hx)

end

/-- Settles O58: the pins are sampled in turn, rst and in_valid, then out_ready, then in_data, and the first that cannot be
sampled names the refusal; sampled pins run their cycle. -/
theorem boundaryOfTheModelIsRefusedByName : Obligations.BoundaryOfTheModelIsRefusedByName := by
  intro s d rest hs
  refine ⟨fun h => ?_, fun hr hv ho => ?_, fun hr hv ho => ?_, fun r v o hr hv ho hx => ⟨fun hf => ?_, fun hf hrun x => ?_⟩,
    fun r v x hr hv hx => ⟨fun l o hl hlo => ?_, fun ho => ?_, fun ho => ?_, fun hrun hl hloop => ?_⟩⟩
  · exact step_of_sample_error hs (sample_of_unclean_pin h _)
  · exact step_of_ready_error hs hr hv fun r v => by rw [ho]; rfl
  · exact step_of_ready_error hs hr hv fun r v => by rw [ho]; rfl
  · exact step_of_sample_error hs (sample_of_unclean_transfer hr hv ho hx hf)
  · exact step_of_unclean_idle_word hs hr hv ho hx hf hrun x
  · exact step_of_clean_word hs hr hv (by simp only [hl, ReadyDrive.bit, hlo]) hx
  · exact step_of_clean_word hs hr hv (by rw [ho]; rfl) hx
  · exact step_of_clean_word hs hr hv (by rw [ho]; rfl) hx
  · obtain ⟨o, ho⟩ := exists_ready_bit hl hloop r v s.regs
    obtain ⟨t, ht, -⟩ := runPins_completes_of_run (p := ⟨r, v, o, x⟩) (s := { s with script := rest }) hrun
    exact ⟨t, (step_of_clean_word hs hr hv ho hx).trans ht⟩

end Sys2Proof.Machine
end

section
/-! SUPPORT. The 22 lanes evaluated by themselves, one or several (40_window_extract R122, R126; log entry 5). -/

namespace Sys2Proof.Machine

/-- The operation of lane j. -/
def laneInstr (j : Fin 22) : Instr := laneInstrs[j]

theorem mem_laneInstrs_iff (i : Instr) : i ∈ laneInstrs ↔ ∃ j, i = laneInstr j := by
  rw [List.mem_iff_get]
  exact exists_congr fun _ => eq_comm

theorem laneInstr_injective : Function.Injective laneInstr := by
  unfold Function.Injective
  decide

/-- The selector j names lane j (30_encoding R75, R78). -/
theorem decode_lane (j : Fin 22) : decode (.lane (BitVec.ofNat 5 j)) = .ok (laneInstr j) := by
  revert j
  decide

/-- Lane j settles idx[j] on its window of the in_data on the port. -/
theorem exec_laneInstr (j : Fin 22) (s : State) :
    exec (laneInstr j) s = .next (s.settleLane j (win s.ports.inData)[j]) := by
  fin_cases j <;> rfl

theorem settleLane_idx_same (s : State) (j : Fin 22) (v : Index) : (s.settleLane j v).nets.idx[j] = some v := by
  simp

theorem settleLane_idx_of_ne (s : State) {j k : Fin 22} (v : Index) (h : k ≠ j) :
    (s.settleLane j v).nets.idx[k] = s.nets.idx[k] := by
  have hjk : j.val ≠ k.val := fun e => h (Fin.ext e.symm)
  simp [hjk]

/-- Where every lane is in the list or settled already, running the list leaves the window nets at WIN: a lane settled twice
takes the same value twice, so neither the order nor a repetition matters. -/
theorem execAll_lanes (l : List Instr) (hl : ∀ i ∈ l, i ∈ laneInstrs) :
    ∀ s : State, (∀ j : Fin 22, laneInstr j ∈ l ∨ s.nets.idx[j] = some (win s.ports.inData)[j]) →
      execAll l s = .next { s with nets := { s.nets with idx := (win s.ports.inData).map some } } := by
  induction l with
  | nil =>
    intro s hs
    have hidx : s.nets.idx = (win s.ports.inData).map some := by
      ext1 k hk
      simpa using hs ⟨k, hk⟩
    rw [← hidx]
    rfl
  | cons i l ih =>
    intro s hs
    obtain ⟨j, rfl⟩ := (mem_laneInstrs_iff i).1 (hl i List.mem_cons_self)
    have hrest := ih (fun i hi => hl i (List.mem_cons_of_mem _ hi)) (s.settleLane j (win s.ports.inData)[j]) fun k => ?_
    · simp only [execAll, exec_laneInstr]
      exact hrest
    · by_cases hk : k = j
      · subst hk
        exact .inr (settleLane_idx_same _ _ _)
      · rw [settleLane_idx_of_ne _ _ hk]
        refine (hs k).imp_left fun hmem => ?_
        exact (List.mem_cons.1 hmem).resolve_left fun e => hk (laneInstr_injective e)

/-- Settles O14: a permutation of the 22 lanes has every lane in it, and each settles its own net on its own window. -/
theorem lanesEvaluatedInAnyOrderGiveWin : Obligations.LanesEvaluatedInAnyOrderGiveWin := by
  intro l hl s
  refine execAll_lanes l (fun i => hl.mem_iff.1) s fun j => .inl (hl.mem_iff.2 ?_)
  exact (mem_laneInstrs_iff _).2 ⟨j, rfl⟩

end Sys2Proof.Machine
end

section
/-! SUPPORT. The lane rules of 40_window_extract R100 to R121: each lane is a slice of the in_data bus. -/

namespace Sys2Proof.Machine

/-- A field of byte b, as bits of the bus (10_state R22). -/
theorem extractLsb'_inByte (d : DataIn) (b : Nat) {k n : Nat} (h : k + n ≤ 8) :
    (inByte d b).extractLsb' k n = d.extractLsb' (8 * b + k) n := by
  refine BitVec.eq_of_getLsbD_eq fun i hi => ?_
  have hk : k + i < 8 := by omega
  simp [inByte, hi, hk, Nat.add_assoc]

/-- A mask of ones over a field of the bus leaves the field as it is. -/
theorem extractLsb'_and_of_ones {w a n : Nat} {m : BitVec w} (hm : m.extractLsb' a n = BitVec.allOnes n) (d : BitVec w) :
    (d &&& m).extractLsb' a n = d.extractLsb' a n := by
  rw [BitVec.extractLsb'_and, hm, BitVec.and_allOnes]

/-- A lane whose window is the slice `slice`, which reads no bit outside `mask`, meets its rule: the decoder and the evaluation
are those of every lane, and the corner cases are the slice of no bits and of the whole mask. -/
theorem laneRule_of_slice (j : Fin 22) {slice : DataIn → Index} {expr : DataIn → Nat} {mask : DataIn} {top up high : Index}
    (hslice : ∀ d, (win d)[j] = slice d) (hexpr : ∀ d, (win d)[j].toNat = expr d)
    (hmask : ∀ d, slice (d &&& mask) = slice d) (hzero : slice 0 = 0) (htop : slice mask = top)
    (hup : (win exampleUp)[j] = up) (hhigh : (win exampleHigh)[j] = high) :
    LaneRule (laneInstr j) j slice expr mask top up high := by
  have henc : ∀ d, (enc d)[j] = lut (win d)[j] := fun d => enc_get d j j.isLt
  refine ⟨decode_lane j, fun d => ⟨hslice d, hexpr d⟩, fun d e h => ?_, fun d h => ?_, fun d h => ?_, hup, hhigh,
    fun s => ⟨_, exec_laneInstr j s, ?_, fun k hk => settleLane_idx_of_ne s _ hk, rfl⟩⟩
  · rw [hslice, hslice, ← hmask d, h, hmask e]
  · have hwin : (win d)[j] = 0 := by rw [hslice, ← hmask d, h, hzero]
    exact ⟨hwin, by rw [henc, hwin]; decide⟩
  · have hwin : (win d)[j] = top := by rw [hslice, ← hmask d, h, htop]
    exact ⟨hwin, by rw [henc, hwin]⟩
  · rw [settleLane_idx_same, hslice]

/-! One rule per window shape, for a lane j of that shape on byte b. -/

section
variable (j : Fin 22) (b : Nat) {mask : DataIn} {up high : Index}
  (hup : (win exampleUp)[j] = up) (hhigh : (win exampleHigh)[j] = high)
include hup hhigh

theorem laneRule_windowA (hwin : ∀ d, (win d)[j] = windowA (inByte d b))
    (hmask : mask.extractLsb' (8 * b + 2) 6 = BitVec.allOnes 6) :
    LaneRule (laneInstr j) j (fun d => d.extractLsb' (8 * b + 2) 6) (fun d => exprA (inByte d b)) mask 63 up high := by
  refine laneRule_of_slice j (fun d => ?_) (fun d => ?_) (extractLsb'_and_of_ones hmask) BitVec.extractLsb'_zero hmask hup hhigh
  · rw [hwin, windowA, extractLsb'_inByte d b (by decide)]
  · rw [hwin, windowA_toNat]

theorem laneRule_windowD (hwin : ∀ d, (win d)[j] = windowD (inByte d b))
    (hmask : mask.extractLsb' (8 * b) 6 = BitVec.allOnes 6) :
    LaneRule (laneInstr j) j (fun d => d.extractLsb' (8 * b) 6) (fun d => exprD (inByte d b)) mask 63 up high := by
  refine laneRule_of_slice j (fun d => ?_) (fun d => ?_) (extractLsb'_and_of_ones hmask) BitVec.extractLsb'_zero hmask hup hhigh
  · rw [hwin, windowD, extractLsb'_inByte d b (by decide)]
    rfl
  · rw [hwin, windowD_toNat]

theorem laneRule_windowB (hwin : ∀ d, (win d)[j] = windowB (inByte d b) (inByte d (b + 1)))
    (hmx : mask.extractLsb' (8 * b) 2 = BitVec.allOnes 2) (hmy : mask.extractLsb' (8 * (b + 1) + 4) 4 = BitVec.allOnes 4) :
    LaneRule (laneInstr j) j (fun d => d.extractLsb' (8 * b) 2 ++ d.extractLsb' (8 * (b + 1) + 4) 4)
      (fun d => exprB (inByte d b) (inByte d (b + 1))) mask 63 up high := by
  refine laneRule_of_slice j (fun d => ?_) (fun d => ?_) (fun d => ?_) ?_ ?_ hup hhigh
  · rw [hwin, windowB, extractLsb'_inByte d b (by decide), extractLsb'_inByte d (b + 1) (by decide)]
    rfl
  · rw [hwin, windowB_toNat]
  · rw [extractLsb'_and_of_ones hmx, extractLsb'_and_of_ones hmy]
  · simp
  · rw [hmx, hmy]
    rfl

theorem laneRule_windowC (hwin : ∀ d, (win d)[j] = windowC (inByte d b) (inByte d (b + 1)))
    (hmy : mask.extractLsb' (8 * b) 4 = BitVec.allOnes 4) (hmz : mask.extractLsb' (8 * (b + 1) + 6) 2 = BitVec.allOnes 2) :
    LaneRule (laneInstr j) j (fun d => d.extractLsb' (8 * b) 4 ++ d.extractLsb' (8 * (b + 1) + 6) 2)
      (fun d => exprC (inByte d b) (inByte d (b + 1))) mask 63 up high := by
  refine laneRule_of_slice j (fun d => ?_) (fun d => ?_) (fun d => ?_) ?_ ?_ hup hhigh
  · rw [hwin, windowC, extractLsb'_inByte d b (by decide), extractLsb'_inByte d (b + 1) (by decide)]
    rfl
  · rw [hwin, windowC_toNat]
  · rw [extractLsb'_and_of_ones hmy, extractLsb'_and_of_ones hmz]
  · simp
  · rw [hmy, hmz]
    rfl

theorem laneRule_windowT (hwin : ∀ d, (win d)[j] = windowT (inByte d b))
    (hmask : mask.extractLsb' (8 * b) 2 = BitVec.allOnes 2) :
    LaneRule (laneInstr j) j (fun d => d.extractLsb' (8 * b) 2 ++ 0#4) (fun d => exprT (inByte d b)) mask 48 up high := by
  refine laneRule_of_slice j (fun d => ?_) (fun d => ?_) (fun d => ?_) ?_ ?_ hup hhigh
  · rw [hwin, windowT, extractLsb'_inByte d b (by decide)]
    rfl
  · rw [hwin, windowT_toNat]
  · rw [extractLsb'_and_of_ones hmask]
  · simp
  · rw [hmask]
    rfl

end

/-- Settles O9: lanes 0, 4, ..., 20 have shape W_A on bytes 0, 3, ..., 15. -/
theorem lanesOfShapeAFollowTheirRules : Obligations.LanesOfShapeAFollowTheirRules :=
  ⟨laneRule_windowA 0 0 rfl rfl (fun _ => rfl) rfl,
   laneRule_windowA 4 3 rfl rfl (fun _ => rfl) rfl,
   laneRule_windowA 8 6 rfl rfl (fun _ => rfl) rfl,
   laneRule_windowA 12 9 rfl rfl (fun _ => rfl) rfl,
   laneRule_windowA 16 12 rfl rfl (fun _ => rfl) rfl,
   laneRule_windowA 20 15 rfl rfl (fun _ => rfl) rfl⟩

/-- Settles O10: lanes 1, 5, ..., 17 have shape W_B on bytes 0, 3, ..., 12 and the byte after each. -/
theorem lanesOfShapeBFollowTheirRules : Obligations.LanesOfShapeBFollowTheirRules :=
  ⟨laneRule_windowB 1 0 rfl rfl (fun _ => rfl) rfl rfl,
   laneRule_windowB 5 3 rfl rfl (fun _ => rfl) rfl rfl,
   laneRule_windowB 9 6 rfl rfl (fun _ => rfl) rfl rfl,
   laneRule_windowB 13 9 rfl rfl (fun _ => rfl) rfl rfl,
   laneRule_windowB 17 12 rfl rfl (fun _ => rfl) rfl rfl⟩

/-- Settles O11: lanes 2, 6, ..., 18 have shape W_C on bytes 1, 4, ..., 13 and the byte after each. -/
theorem lanesOfShapeCFollowTheirRules : Obligations.LanesOfShapeCFollowTheirRules :=
  ⟨laneRule_windowC 2 1 rfl rfl (fun _ => rfl) rfl rfl,
   laneRule_windowC 6 4 rfl rfl (fun _ => rfl) rfl rfl,
   laneRule_windowC 10 7 rfl rfl (fun _ => rfl) rfl rfl,
   laneRule_windowC 14 10 rfl rfl (fun _ => rfl) rfl rfl,
   laneRule_windowC 18 13 rfl rfl (fun _ => rfl) rfl rfl⟩

/-- Settles O12: lanes 3, 7, ..., 19 have shape W_D on bytes 2, 5, ..., 14. -/
theorem lanesOfShapeDFollowTheirRules : Obligations.LanesOfShapeDFollowTheirRules :=
  ⟨laneRule_windowD 3 2 rfl rfl (fun _ => rfl) rfl,
   laneRule_windowD 7 5 rfl rfl (fun _ => rfl) rfl,
   laneRule_windowD 11 8 rfl rfl (fun _ => rfl) rfl,
   laneRule_windowD 15 11 rfl rfl (fun _ => rfl) rfl,
   laneRule_windowD 19 14 rfl rfl (fun _ => rfl) rfl⟩

theorem win_21_low_bits (d : DataIn) : (win d)[21].extractLsb' 0 4 = 0#4 :=
  windowT_low_bits _

/-- An index with the tail zeros is one of the four multiples of 16 (40_window_extract R121). -/
theorem tail_index_cases (i : Index) (h : i.extractLsb' 0 4 = 0#4) : i = 0 ∨ i = 16 ∨ i = 32 ∨ i = 48 := by
  revert i
  decide

/-- Settles O13: lane 21 has shape W_T on byte 15, whose four zeros leave four values and four characters. -/
theorem tailLane21FollowsItsRule : Obligations.TailLane21FollowsItsRule := by
  refine ⟨laneRule_windowT 21 15 rfl rfl (fun _ => rfl) rfl, fun d => ⟨?_, win_21_low_bits d, ?_⟩⟩
  · exact tail_index_cases _ (win_21_low_bits d)
  · rw [enc_get]
    exact isTailChar_lut _ (win_21_low_bits d)

end Sys2Proof.Machine
end

section
/-! SUPPORT. The ranges of the source expressions, and which bytes a lane reads (40_window_extract R123, R128). -/

namespace Sys2Proof.Machine

/-- A value shifted up by n bits and a value of n bits share no bit. -/
theorem shiftLeft_and_eq_zero (a : Nat) {b n : Nat} (hb : b < 2 ^ n) : a <<< n &&& b = 0 := by
  refine Nat.zero_of_testBit_eq_false fun t => ?_
  rw [Nat.testBit_and, Nat.testBit_shiftLeft]
  obtain ht | ht := Nat.lt_or_ge t n
  · simp [ht]
  · rw [Nat.testBit_lt_two_pow (hb.trans_le (Nat.pow_le_pow_right two_pos ht)), Bool.and_false]

/-- A masked value, shifted up by n bits, is at most the mask so shifted. -/
theorem and_shiftLeft_le (a m n : Nat) : (a &&& m) <<< n ≤ m <<< n := by
  rw [Nat.shiftLeft_eq, Nat.shiftLeft_eq]
  exact Nat.mul_le_mul_right _ Nat.and_le_right

theorem byte_shiftRight_lt (x : Byte) {k n : Nat} (h : k + n = 8) : x.toNat >>> k < 2 ^ n := by
  rw [← byte_shiftRight_mod x h]
  exact Nat.mod_lt _ (by positivity)

/-- Settles O16: a shift of a byte to the right leaves its top bits alone, a mask bounds what is shifted to the left, and an index
has 6 bits. -/
theorem windowExpressionsStayInRange : Obligations.WindowExpressionsStayInRange := by
  refine ⟨fun x y => ?_, fun d j => Nat.le_of_lt_succ (BitVec.isLt _), fun d => ⟨windowT_toNat _, ?_⟩⟩
  · have hx2 : x.toNat >>> 2 < 2 ^ 6 := byte_shiftRight_lt x rfl
    have hy4 : y.toNat >>> 4 < 2 ^ 4 := byte_shiftRight_lt y rfl
    have hy6 : y.toNat >>> 6 < 2 ^ 2 := byte_shiftRight_lt y rfl
    exact ⟨Nat.le_of_lt_succ hx2, Nat.and_le_right, and_shiftLeft_le _ 3 4, Nat.le_of_lt_succ hy4,
      shiftLeft_and_eq_zero _ hy4, and_shiftLeft_le _ 15 2, Nat.le_of_lt_succ hy6, shiftLeft_and_eq_zero _ hy6,
      Nat.le_of_lt_succ (eq_and_lt_of_index (windowB_toNat x y)).2,
      Nat.le_of_lt_succ (eq_and_lt_of_index (windowC_toNat x y)).2⟩
  · obtain h | h | h | h := tail_index_cases _ (win_21_low_bits d) <;> rw [h] <;> decide

/-- Settles O20: the lane map gives lane 4g + r the bytes from 3g up, and lanes 20 and 21 byte 15. -/
theorem lanesReadOnlyTheirGroup : Obligations.LanesReadOnlyTheirGroup := by
  intro d e
  refine ⟨fun g h0 h1 h2 r j hj => ?_, fun h => ⟨congrArg windowA h, congrArg windowT h⟩⟩
  have hg : j.val / 4 = g := by omega
  have h20 : j.val ≠ 20 := by omega
  have h21 : j.val ≠ 21 := by omega
  rw [windowsFollowTheLaneMap d j, windowsFollowTheLaneMap e j]
  simp only [laneByMap, h20, h21, if_false, hg, h0, h1, h2]

end Sys2Proof.Machine
end

section
/-! SUPPORT. WIN as windows of the bit stream, and what follows for each input bit (40_window_extract R124, R125). -/

namespace Sys2Proof.Machine

/-- Bit m of byte b is stream bit 8b + (7 - m) (40_window_extract R124). -/
theorem inByte_eq_stream (d : DataIn) {p b m : Nat} (hb : b < 16) (hm : m < 8) (hp : p = 8 * b + (7 - m)) :
    (inByte d b).getLsbD m = streamBit d p := by
  have hlt : p < 128 := by omega
  have hdiv : p / 8 = b := by omega
  have hmod : 7 - p % 8 = m := by omega
  rw [streamBit, if_pos hlt, hdiv, hmod]

theorem streamBit_of_ge (d : DataIn) {p : Nat} (hp : 128 ≤ p) : streamBit d p = false :=
  if_neg (Nat.not_lt.2 hp)

/-! Bit k of each window shape is a bit of the stream, which numbers the bits of a byte the other way round. -/

section
variable (d : DataIn) (k : Fin 6) {b p : Nat}

theorem windowA_eq_stream (hb : b < 16) (hp : p = 8 * b + 5 - k) :
    (windowA (inByte d b)).getLsbD k = streamBit d p := by
  obtain ⟨hA, -⟩ := window_bits (inByte d b) 0 k
  rw [hA]
  exact inByte_eq_stream d hb (by omega) (by omega)

theorem windowB_eq_stream (hb : b + 1 < 16) (hp : p = 8 * b + 11 - k) :
    (windowB (inByte d b) (inByte d (b + 1))).getLsbD k = streamBit d p := by
  obtain ⟨-, -, hB, -⟩ := window_bits (inByte d b) (inByte d (b + 1)) k
  rw [hB]
  split
  · exact inByte_eq_stream d hb (by omega) (by omega)
  · exact inByte_eq_stream d (by omega) (by omega) (by omega)

theorem windowC_eq_stream (hb : b + 1 < 16) (hp : p = 8 * b + 9 - k) :
    (windowC (inByte d b) (inByte d (b + 1))).getLsbD k = streamBit d p := by
  obtain ⟨-, -, -, hC, -⟩ := window_bits (inByte d b) (inByte d (b + 1)) k
  rw [hC]
  split
  · exact inByte_eq_stream d hb (by omega) (by omega)
  · exact inByte_eq_stream d (by omega) (by omega) (by omega)

theorem windowD_eq_stream (hb : b < 16) (hp : p = 8 * b + 7 - k) :
    (windowD (inByte d b)).getLsbD k = streamBit d p := by
  obtain ⟨-, hD, -⟩ := window_bits (inByte d b) 0 k
  rw [hD]
  exact inByte_eq_stream d hb (by omega) (by omega)

/-- The four constant zeros stand past the 128 bits of the input. -/
theorem windowT_eq_stream (hp : p = 131 - k) : (windowT (inByte d 15)).getLsbD k = streamBit d p := by
  obtain ⟨-, -, -, -, hT⟩ := window_bits (inByte d 15) 0 k
  rw [hT]
  split
  · exact (streamBit_of_ge d (by omega)).symm
  · exact inByte_eq_stream d (by decide) (by omega) (by omega)

/-- Bit k of idx[j] is stream bit 6j + 5 - k (40_window_extract R125). -/
theorem win_getLsbD (j : Fin 22) : (win d)[j].getLsbD k = streamBit d (6 * j + 5 - k) := by
  rw [windowsFollowTheLaneMap d j, laneByMap]
  split
  next h20 => exact windowA_eq_stream d k (by decide) (by omega)
  next h20 =>
    split
    next h21 => exact windowT_eq_stream d k (by omega)
    next h21 =>
      have hg : j.val / 4 < 5 := by omega
      split
      next hr => exact windowA_eq_stream d k (by omega) (by omega)
      next hr => exact windowB_eq_stream d k (by omega) (by omega)
      next hr => exact windowC_eq_stream d k (by omega) (by omega)
      next h0 h1 h2 =>
        rw [imp_false] at h0 h1 h2
        exact windowD_eq_stream d k (by omega) (by omega)

end

/-- The value of an index, from its bits. -/
theorem index_toNat_eq_sum (i : Index) :
    i.toNat = (i.getLsbD 5).toNat * 32 + (i.getLsbD 4).toNat * 16 + (i.getLsbD 3).toNat * 8 +
      (i.getLsbD 2).toNat * 4 + (i.getLsbD 1).toNat * 2 + (i.getLsbD 0).toNat := by
  revert i
  decide

/-- Settles O18: the value of an index is the sum of its bits, each of which is a bit of the stream. -/
theorem windowsReadTheBitStream : Obligations.WindowsReadTheBitStream := by
  intro d j
  have hbit : ∀ k < 6, (win d)[j].getLsbD k = streamBit d (6 * j + 5 - k) := fun k hk => win_getLsbD d ⟨k, hk⟩ j
  rw [index_toNat_eq_sum, streamIndex, hbit 5 (by decide), hbit 4 (by decide), hbit 3 (by decide), hbit 2 (by decide),
    hbit 1 (by decide), hbit 0 (by decide)]
  rfl

theorem inByte_getLsbD (d : DataIn) (b : Nat) {m : Nat} (hm : m < 8) : (inByte d b).getLsbD m = d.getLsbD (8 * b + m) := by
  simp [inByte, hm]

/-- Two words with the same stream are the same word. -/
theorem eq_of_streamBit_eq {d e : DataIn} (h : ∀ p < 128, streamBit d p = streamBit e p) : d = e := by
  refine BitVec.eq_of_getLsbD_eq fun n hn => ?_
  have hm : n % 8 < 8 := by omega
  have hb : n / 8 < 16 := by omega
  have hbit : ∀ f : DataIn, f.getLsbD n = streamBit f (8 * (n / 8) + (7 - n % 8)) := fun f => by
    rw [← inByte_eq_stream f hb hm rfl, inByte_getLsbD f _ hm, Nat.div_add_mod]
  rw [hbit, hbit, h _ (by omega)]

/-- With bit m of byte i flipped the stream differs at bit 8i + (7 - m) alone. -/
theorem streamBit_flip (d : DataIn) (i : Fin 16) (m : Fin 8) (p : Nat) :
    streamBit (d ^^^ (1#128 <<< (8 * i.val + m.val))) p ≠ streamBit d p ↔ p = 8 * i.val + (7 - m.val) := by
  obtain hp | hp := Nat.lt_or_ge p 128
  · have hm : 7 - p % 8 < 8 := by omega
    have hbit : ∀ f : DataIn, streamBit f p = f.getLsbD (8 * (p / 8) + (7 - p % 8)) := fun f => by
      rw [streamBit, if_pos hp, inByte_getLsbD f _ hm]
    have hlt : 8 * i.val + m.val < 128 := by omega
    have hxor : ∀ a b : Bool, (a ^^ b) ≠ a ↔ b = true := by decide
    rw [hbit, hbit, BitVec.getLsbD_xor, ← BitVec.twoPow_eq, BitVec.getLsbD_twoPow, hxor]
    simp only [hlt, decide_true, Bool.true_and, decide_eq_true_eq]
    omega
  · rw [streamBit_of_ge _ hp, streamBit_of_ge _ hp]
    simp only [ne_eq, not_true, false_iff]
    omega

/-- An index changes exactly where one of the six stream bits of its lane changes. -/
theorem win_ne_iff (d e : DataIn) (j : Fin 22) :
    (win d)[j] ≠ (win e)[j] ↔ ∃ k : Fin 6, streamBit d (6 * j + 5 - k) ≠ streamBit e (6 * j + 5 - k) := by
  have hbits : (win d)[j] = (win e)[j] ↔ ∀ k : Fin 6, streamBit d (6 * j + 5 - k) = streamBit e (6 * j + 5 - k) := by
    simp only [← win_getLsbD]
    exact BitVec.eq_of_getLsbD_eq_iff.trans ⟨fun h k => h k k.isLt, fun h i hi => h ⟨i, hi⟩⟩
  rw [Ne, hbits, not_forall]

/-- The stream is read back from the windows (40_window_extract R125). -/
theorem streamBit_eq_win (d : DataIn) {p : Nat} (hp : p < 128) :
    streamBit d p = (win d)[p / 6].getLsbD (5 - p % 6) := by
  have hbit := win_getLsbD d ⟨5 - p % 6, by omega⟩ ⟨p / 6, by omega⟩
  have hpos : 6 * (p / 6) + 5 - (5 - p % 6) = p := by omega
  simp only [hpos] at hbit
  exact hbit.symm

/-- Settles O19: bit k of idx[j] is stream bit 6j + 5 - k, so a flipped bit shows in the one lane that has it, and the stream,
hence the word, is read back from the windows. -/
theorem everyInputBitIsReadOnce : Obligations.EveryInputBitIsReadOnce := by
  refine ⟨fun d j k => win_getLsbD d k j, fun d i m j => ?_, win_21_low_bits, fun d e h => ?_⟩
  · simp only [win_ne_iff, streamBit_flip]
    constructor
    · rintro ⟨k, hk⟩
      omega
    · intro hj
      exact ⟨⟨5 - (8 * i.val + (7 - m.val)) % 6, by omega⟩, by simp only; omega⟩
  · refine eq_of_streamBit_eq fun p hp => ?_
    rw [streamBit_eq_win d hp, streamBit_eq_win e hp, h]

end Sys2Proof.Machine
end

section
/-! SUPPORT. The alphabet lookup evaluated by itself, once or several times (41_alphabet_lut R140 to R148; log entry 5). -/

namespace Sys2Proof.Machine

theorem lut_toNat (i : Index) : (lut i).toNat = lutArith i.toNat := by
  revert i
  decide

theorem exec_lut (i : Index) (s : State) : exec (.lut i) s = .next (s.settleLookup i) := rfl

/-- Settles O21: the table agrees with its arithmetic form at each of the 64 indices, and the lanes driven are those of a valid
S1 whose operand is i. -/
theorem lookupGivesTheAlphabetCode : Obligations.LookupGivesTheAlphabetCode := by
  intro i s
  refine ⟨s.settleLookup i, lut i, exec_lut i s, rfl, lut_toNat i, ?_, ?_, fun hv j => ?_, fun hv => ?_, rfl⟩
  · rintro rfl
    rfl
  · rintro rfl
    rfl
  · rw [State.settleLookup_nets, Fin.getElem_fin, lookupCh_get]
    simp [hv]
  · exact lookupCh_of_s1_empty i s.regs s.nets.ch hv

/-- The state after the lookups of a list, in its order. -/
def State.settleLookups (s : State) (l : List Index) : State := l.foldl State.settleLookup s

@[simp] theorem State.settleLookups_nil (s : State) : s.settleLookups [] = s := rfl

@[simp] theorem State.settleLookups_cons (s : State) (i : Index) (l : List Index) :
    s.settleLookups (i :: l) = (s.settleLookup i).settleLookups l := rfl

theorem execAll_lookups (l : List Index) : ∀ s : State, execAll (l.map .lut) s = .next (s.settleLookups l) := by
  induction l with
  | nil => exact fun _ => rfl
  | cons i l ih => exact fun s => ih (s.settleLookup i)

theorem settleLookups_frame (l : List Index) : ∀ s : State,
    s.settleLookups l = { s with nets := { s.nets with lutOut := (s.settleLookups l).nets.lutOut,
                                                       ch := (s.settleLookups l).nets.ch } } := by
  induction l with
  | nil => exact fun _ => rfl
  | cons i l ih => exact fun s => ih (s.settleLookup i)

/-- A lane is driven exactly where S1 is valid and the list holds its operand: what a lookup drives into a lane depends on the
operand alone, so neither the order nor a repetition matters. -/
theorem settleLookups_ch (l : List Index) (j : Fin 22) : ∀ s : State,
    (s.settleLookups l).nets.ch[j] =
      if s.regs.s1Valid = true ∧ s.regs.s1Idx[j] ∈ l then some (lut s.regs.s1Idx[j]) else s.nets.ch[j] := by
  induction l with
  | nil => simp
  | cons i l ih =>
    intro s
    rw [State.settleLookups_cons, ih, State.settleLookup_regs, State.settleLookup_nets]
    simp only [Fin.getElem_fin, lookupCh_get, List.mem_cons]
    by_cases hi : s.regs.s1Idx[j.val] = i
    · subst hi
      cases s.regs.s1Valid <;> simp
    · simp [hi]

/-- Settles O22: a lane is driven where S1 is valid and its operand is in the list, which is every lane here, or none. -/
theorem lookupsOfAllIndicesSettleEveryLane : Obligations.LookupsOfAllIndicesSettleEveryLane := by
  intro l s
  refine ⟨s.settleLookups l, execAll_lookups l s, fun hv hl => ?_, fun hv => ?_, settleLookups_frame l s⟩
  · have hch (j : Fin 22) : (s.settleLookups l).nets.ch[j] = some (lut s.regs.s1Idx[j]) := by
      rw [settleLookups_ch, if_pos ⟨hv, hl j⟩]
    refine ⟨hch, ?_⟩
    ext1 j hj
    simpa using hch ⟨j, hj⟩
  · ext1 j hj
    simpa [hv] using settleLookups_ch l ⟨j, hj⟩ s

end Sys2Proof.Machine
end

section
/-! SUPPORT. The characters of ENC (41_alphabet_lut R141, R145, R149, R150). -/

namespace Sys2Proof.Machine

theorem inAlphabet_enc (d : DataIn) (j : Fin 22) : inAlphabet (enc d)[j] :=
  (enc_get d j j.isLt).symm ▸ inAlphabet_lut _

/-- The codes of the alphabet are 7-bit codes (41_alphabet_lut R149). -/
theorem bit7_of_inAlphabet {c : CharCode} (h : inAlphabet c) : c.getLsbD 7 = false := by
  revert c
  decide

/-- The last character is looked up at b[15][1:0] with four zeros below (40_window_extract R121, 41_alphabet_lut R150). -/
theorem enc_21_of_low_bits {d : DataIn} {b : BitVec 2} (h : (inByte d 15).extractLsb' 0 2 = b) :
    (enc d)[21] = lut (b ++ 0#4) := by
  subst h
  exact enc_get d 21 (by omega)

/-- Settles O25: every character is a code of the alphabet, and the last is looked up at b[15][1:0] and four zeros. -/
theorem encodedCharactersAreUrlSafe : Obligations.EncodedCharactersAreUrlSafe := by
  refine fun d => ⟨fun j => ?_, enc_21_of_low_bits, enc_21_of_low_bits, enc_21_of_low_bits, enc_21_of_low_bits, ?_⟩
  · have hj := inAlphabet_enc d j
    obtain ⟨hplus, hslash, heq⟩ := ne_of_inAlphabet hj
    exact ⟨hj, hplus, hslash, heq, bit7_of_inAlphabet hj⟩
  · rw [enc_get]
    exact isTailChar_lut _ (win_21_low_bits d)

end Sys2Proof.Machine
end

section
/-! SUPPORT. ENC as the reference process, and ENC as an injection (42_stream_ops R160, R161, R171). -/

namespace Sys2Proof.Machine

/-- The substitution takes the standard alphabet to ALPHA (42_stream_ops R161(b)). -/
theorem urlChar_standardChar (n : Nat) : urlChar (standardChar n) = lutArith n := by
  by_cases h : n ≤ 61
  · have hlow : 0x30 ≤ lutArith n := by
      unfold lutArith
      split_ifs <;> omega
    rw [standardChar, if_pos h, urlChar, if_neg (by omega), if_neg (by omega)]
  · have h25 : ¬ n ≤ 25 := by omega
    have h51 : ¬ n ≤ 51 := by omega
    by_cases h62 : n = 62 <;> simp [standardChar, urlChar, lutArith, h, h25, h51, h62]

/-- WIN as values: one group of four window expressions for each three bytes, and the two of the tail (30_encoding R78). -/
theorem win_map_toNat (d : DataIn) : (win d).toList.map BitVec.toNat =
    [exprA (inByte d 0), exprB (inByte d 0) (inByte d 1), exprC (inByte d 1) (inByte d 2), exprD (inByte d 2),
     exprA (inByte d 3), exprB (inByte d 3) (inByte d 4), exprC (inByte d 4) (inByte d 5), exprD (inByte d 5),
     exprA (inByte d 6), exprB (inByte d 6) (inByte d 7), exprC (inByte d 7) (inByte d 8), exprD (inByte d 8),
     exprA (inByte d 9), exprB (inByte d 9) (inByte d 10), exprC (inByte d 10) (inByte d 11), exprD (inByte d 11),
     exprA (inByte d 12), exprB (inByte d 12) (inByte d 13), exprC (inByte d 13) (inByte d 14), exprD (inByte d 14),
     exprA (inByte d 15), exprT (inByte d 15)] := by
  simp only [← windowA_toNat, ← windowB_toNat, ← windowC_toNat, ← windowD_toNat, ← windowT_toNat]
  rfl

/-- Standard Base64 of the 16 bytes looks up the values of WIN, and pads with two `=` (42_stream_ops R161(a)). -/
theorem standardBase64_inBytes (d : DataIn) :
    standardBase64 (inBytes d) = ((win d).toList.map BitVec.toNat).map standardChar ++ [0x3D, 0x3D] := by
  rw [win_map_toNat]
  rfl

theorem enc_toList_map_toNat (d : DataIn) :
    (enc d).toList.map BitVec.toNat = ((win d).toList.map BitVec.toNat).map lutArith := by
  have henc : enc d = (win d).map lut := by
    ext1 j hj
    rw [enc_get, Vector.getElem_map]
  simp [henc, Vector.toList_map, lut_toNat]

theorem referenceProcess_eq (d : DataIn) :
    referenceProcess d = ((win d).toList.map BitVec.toNat).map lutArith := by
  rw [referenceProcess, standardBase64_inBytes]
  simp [urlChar_standardChar]

/-- Settles O23: both sides look up the 22 values of WIN, one in the alphabet, the other in the standard alphabet with the two
characters substituted; the two that are discarded are the padding. -/
theorem encodeEqualsTheReferenceProcess : Obligations.EncodeEqualsTheReferenceProcess := by
  refine fun d => ⟨(enc_toList_map_toNat d).trans (referenceProcess_eq d).symm, ?_, ?_⟩
  · simp [standardBase64_inBytes]
  · simp [standardBase64_inBytes]

/-- No character stands twice in the alphabet (41_alphabet_lut R141). -/
theorem alpha_nodup : alpha.toList.Nodup := by decide

theorem lut_injective : Function.Injective lut := by
  intro i j h
  have hlt (k : Index) : k.toNat < alpha.toList.length := by
    simpa using k.isLt
  have hget (k : Index) : lut k = alpha.toList[k.toNat]'(hlt k) := (Vector.getElem_toList _).symm
  rw [hget, hget, alpha_nodup.getElem_inj_iff] at h
  exact BitVec.eq_of_toNat_eq h

theorem packChars_injective : Function.Injective packChars := by
  intro v w h
  ext1 j hj
  calc v[j]
    _ = outChar (packChars v) j := (outChar_packChars v ⟨j, hj⟩).symm
    _ = outChar (packChars w) j := by rw [h]
    _ = w[j] := outChar_packChars w ⟨j, hj⟩

theorem lutAll_injective : Function.Injective lutAll := by
  intro v w h
  ext1 j hj
  apply lut_injective
  rw [← lutAll_get v j hj, h, lutAll_get]

theorem win_injective : Function.Injective win := by
  obtain ⟨-, -, -, hwin⟩ := everyInputBitIsReadOnce
  exact hwin

theorem enc_injective : Function.Injective enc := lutAll_injective.comp win_injective

/-- Settles O24: WIN reads every bit, the alphabet has no character twice, and the bus shows every character. -/
theorem encodeIsInjective : Obligations.EncodeIsInjective :=
  ⟨fun _ _ h => enc_injective h, fun _ _ h => enc_injective (packChars_injective h)⟩

end Sys2Proof.Machine
end

section
/-! SUPPORT. The five per-cycle operations, each as the one clock cycle it is (42_stream_ops R164 to R168). -/

namespace Sys2Proof.Machine

/-- A clock cycle that may run, with its next registers and its two transfers already worked out. -/
theorem clockCycle_completes {s : State} {p : Ports} {q : Regs} {inXfer outXfer : Bool} (h : (s.initialised || p.rst) = true)
    (hregs : stepRegs p s.regs = q) (hin : inFire (s.drive p) = inXfer) (hout : outFire (s.drive p) = outXfer) :
    ∃ t, clockCycle (s.drive p) = .next t ∧ t.regs = q ∧ CycleFrame s t p inXfer outXfer := by
  subst hregs hin hout
  exact clockCycle_drive s p h

theorem drained_iff (s : State) : drained s = true ↔ s.regs.s1Valid = false ∧ s.regs.s2Valid = false := by
  simp [drained]

/-! ### RESET -/

theorem reset_completes (s : State) : ∃ t, exec .reset s = .next t ∧
    t.regs = { s.regs with s1Valid := false, s2Valid := false } ∧
    CycleFrame s t { s.ports with rst := true } false false := by
  obtain ⟨hin, hout, -⟩ := no_transfer_of_rst (s.drive { s.ports with rst := true }) rfl
  exact clockCycle_completes (by simp) rfl hin hout

theorem regs_of_drained {s : State} (h : drained s = true) :
    { s.regs with s1Valid := false, s2Valid := false } = s.regs := by
  obtain ⟨h1, h2⟩ := (drained_iff s).1 h
  calc { s.regs with s1Valid := false, s2Valid := false }
    _ = { s.regs with s1Valid := s.regs.s1Valid, s2Valid := s.regs.s2Valid } := by rw [h1, h2]
    _ = s.regs := rfl

/-- Every control vector with c[2] = 1 is RESET (30_encoding R71). -/
theorem decodeCtrl_of_rst {c : BitVec 3} (h : c.getLsbD 2 = true) (d : DataIn) : decodeCtrl c d = .reset := by
  simp only [decodeCtrl, h]

/-- Settles O28: a cycle with rst = 1 clears the two valid bits and does nothing else, so a second one changes nothing. -/
theorem resetClearsTheValidBits : Obligations.ResetClearsTheValidBits := by
  intro s
  obtain ⟨t, ht, hregs, hframe⟩ := reset_completes s
  obtain ⟨u, hu, huregs, -⟩ := reset_completes t
  refine ⟨t, ht, hregs, rfl, rfl, hframe, queue_of_empty (by rw [hregs]) (by rw [hregs]),
    fun hd => hregs.trans (regs_of_drained hd), ⟨u, hu, ?_⟩, fun c d hc => congrArg Except.ok (decodeCtrl_of_rst hc d)⟩
  rw [huregs, hregs]

/-! ### IDLE -/

/-- With nothing offered and nothing taken, S1 advances if S2 is empty (42_stream_ops R165). -/
theorem stepRegs_idle (r : Regs) (d : DataIn) : stepRegs ⟨false, false, false, d⟩ r =
    { s1Valid := r.s1Valid && r.s2Valid, s1Idx := r.s1Idx, s2Valid := r.s2Valid || r.s1Valid,
      s2Char := if r.s1Valid && !r.s2Valid then lutAll r.s1Idx else r.s2Char } := by
  cases h1 : r.s1Valid <;> cases h2 : r.s2Valid <;> simp [stepRegs, h1, h2]

/-- Unless S1 alone is full, an idle cycle keeps the registers (42_stream_ops R165). -/
theorem stepRegs_idle_of_not_s1_alone {r : Regs} (h : (r.s1Valid && !r.s2Valid) = false) (d : DataIn) :
    stepRegs ⟨false, false, false, d⟩ r = r := by
  obtain ⟨s1Valid, s1Idx, s2Valid, s2Char⟩ := r
  cases s1Valid with
  | false => simp [stepRegs_idle]
  | true =>
    obtain rfl : s2Valid = true := by simpa using h
    simp [stepRegs_idle]

/-- Settles O29: in an idle cycle the one thing that can move is a full S1 above an empty S2. -/
theorem idleAdvancesOrHolds : Obligations.IdleAdvancesOrHolds := by
  intro s hi
  obtain ⟨t, ht, hregs, hframe⟩ := clockCycle_completes (s := s) (p := ⟨false, false, false, s.ports.inData⟩)
    (by simp [hi]) rfl (inXfer := false) (outXfer := false) rfl (by simp [outFire])
  refine ⟨t, ht, hregs.trans (stepRegs_idle _ _), hframe, fun h => hregs.trans (stepRegs_idle_of_not_s1_alone h _), ?_,
    fun d => rfl⟩
  simp [inReady]

/-! ### PUSH -/

/-- With room in the block, an offered word goes into S1, and what S1 held into S2 (42_stream_ops R166). -/
theorem stepRegs_push {r : Regs} (hroom : (r.s1Valid && r.s2Valid) = false) (h : DataIn) :
    stepRegs ⟨false, true, false, h⟩ r =
      { s1Valid := true, s1Idx := win h, s2Valid := r.s1Valid || r.s2Valid,
        s2Char := if r.s1Valid then lutAll r.s1Idx else r.s2Char } := by
  cases h1 : r.s1Valid with
  | false => simp [stepRegs, h1]
  | true =>
    have h2 : r.s2Valid = false := by simpa [h1] using hroom
    simp [stepRegs, h1, h2]

section
variable {s : State} (hi : s.initialised = true) (h : DataIn)
include hi

theorem push_of_full (hfull : (s.regs.s1Valid && s.regs.s2Valid) = true) : ∃ t, exec (.push h) s = .next t ∧
    t.regs = s.regs ∧ CycleFrame s t ⟨false, true, false, h⟩ false false := by
  obtain ⟨h1, h2⟩ := Bool.and_eq_true_iff.1 hfull
  exact clockCycle_completes (by simp [hi]) (stepRegs_of_full rfl rfl h1 h2) (by simp [inFire, inReady, h1, h2])
    (by simp [outFire])

theorem push_of_room (hroom : (s.regs.s1Valid && s.regs.s2Valid) = false) : ∃ t, exec (.push h) s = .next t ∧
    t.regs = { s1Valid := true, s1Idx := win h, s2Valid := s.regs.s1Valid || s.regs.s2Valid,
               s2Char := if s.regs.s1Valid then lutAll s.regs.s1Idx else s.regs.s2Char } ∧
    CycleFrame s t ⟨false, true, false, h⟩ true false :=
  clockCycle_completes (by simp [hi]) (stepRegs_push hroom h)
    (by simpa [inFire, inReady] using Bool.and_eq_false_iff.1 hroom) (by simp [outFire])

end

/-- Settles O30: with both stages full a cycle of PUSH keeps the registers; otherwise its word goes into S1, after what S1 held
has gone on into S2. -/
theorem pushAcceptsUnlessBothStagesAreFull : Obligations.PushAcceptsUnlessBothStagesAreFull := by
  intro s h hi
  cases hfull : s.regs.s1Valid && s.regs.s2Valid with
  | true =>
    obtain ⟨h1, h2⟩ := Bool.and_eq_true_iff.1 hfull
    obtain ⟨t, ht, hregs, hframe⟩ := push_of_full hi h hfull
    exact ⟨t, ht, fun _ => ⟨hregs, by simp [inReady, h1, h2], hframe⟩, nofun, by simp [drained_iff, h1], by simp [h1],
      by simp [h2], rfl⟩
  | false =>
    obtain ⟨t, ht, hregs, hframe⟩ := push_of_room hi h hfull
    refine ⟨t, ht, nofun, fun _ => ⟨by rw [hregs], by rw [hregs], fun h1 => ?_, fun h1 => ?_, hframe⟩, fun hd => ?_,
      fun h1 h2 => ⟨?_, fun h' => ?_⟩, fun h1 h2 => ?_, rfl⟩
    · simp [hregs, h1]
    · simp [hregs, h1]
    · obtain ⟨h1, h2⟩ := (drained_iff s).1 hd
      simp [occupancy, hregs, h1, h2]
    · simp [occupancy, hregs, h1, h2]
    · obtain ⟨u, hu, huregs, huframe⟩ := push_of_full hframe.initialised h' (by simp [hregs, h2])
      exact ⟨u, hu, huregs, huframe.accepted⟩
    · simp [occupancy, hregs, h1]

/-! ### POP -/

/-- With the host taking and nothing offered, S1 moves into S2 (42_stream_ops R167). -/
theorem stepRegs_pop (r : Regs) (d : DataIn) : stepRegs ⟨false, false, true, d⟩ r =
    { s1Valid := false, s1Idx := r.s1Idx, s2Valid := r.s1Valid,
      s2Char := if r.s1Valid then lutAll r.s1Idx else r.s2Char } := by
  simp [stepRegs]

theorem pop_completes {s : State} (hi : s.initialised = true) : ∃ t, exec .pop s = .next t ∧
    t.regs = { s1Valid := false, s1Idx := s.regs.s1Idx, s2Valid := s.regs.s1Valid,
               s2Char := if s.regs.s1Valid then lutAll s.regs.s1Idx else s.regs.s2Char } ∧
    CycleFrame s t { s.ports with rst := false, inValid := false, outReady := true } false s.regs.s2Valid :=
  clockCycle_completes (by simp [hi]) (stepRegs_pop _ _) rfl (by simp [outFire, outValid])

/-- Settles O31: POP takes what S2 offers and moves S1 on, so that with S1 full the next POP takes S1's word. -/
theorem popTakesTheOfferedWord : Obligations.PopTakesTheOfferedWord := by
  intro s hi
  obtain ⟨t, ht, hregs, hframe⟩ := pop_completes hi
  refine ⟨t, ht, hregs, hframe, fun h1 => ?_, by simp [inReady], fun d => rfl⟩
  obtain ⟨u, hu, -, huframe⟩ := pop_completes hframe.initialised
  refine ⟨u, hu, ?_⟩
  simp [huframe.delivered, hregs, h1]

/-! ### PUSHPOP -/

/-- With the host taking, an offered word always goes into S1, and what S1 held into S2 (42_stream_ops R168). -/
theorem stepRegs_pushpop (r : Regs) (h : DataIn) : stepRegs ⟨false, true, true, h⟩ r =
    { s1Valid := true, s1Idx := win h, s2Valid := r.s1Valid,
      s2Char := if r.s1Valid then lutAll r.s1Idx else r.s2Char } := by
  simp [stepRegs]

theorem pushpop_completes {s : State} (hi : s.initialised = true) (h : DataIn) : ∃ t, exec (.pushpop h) s = .next t ∧
    t.regs = { s1Valid := true, s1Idx := win h, s2Valid := s.regs.s1Valid,
               s2Char := if s.regs.s1Valid then lutAll s.regs.s1Idx else s.regs.s2Char } ∧
    CycleFrame s t ⟨false, true, true, h⟩ true s.regs.s2Valid :=
  clockCycle_completes (by simp [hi]) (stepRegs_pushpop _ _) (by simp [inFire, inReady]) (by simp [outFire, outValid])

/-- Settles O32: each PUSHPOP moves the words on by one stage, so a word is in S1 after the first, in S2 after the second, and
delivered by the third. -/
theorem pushpopAlwaysAcceptsItsWord : Obligations.PushpopAlwaysAcceptsItsWord := by
  intro s h hi
  obtain ⟨t, ht, hregs, hframe⟩ := pushpop_completes hi h
  refine ⟨t, ht, hregs, hframe, fun hd h' => ?_, fun h' => ?_, rfl⟩
  all_goals obtain ⟨u, hu, huregs, huframe⟩ := pushpop_completes hframe.initialised h'
  · obtain ⟨h1, h2⟩ := (drained_iff s).1 hd
    refine ⟨u, hu, ?_, ?_⟩
    · simp [huframe.delivered, hframe.delivered, hregs, h1, h2]
    · simp [huframe.observation, hframe.observation, hregs, h1, h2]
  · refine ⟨u, hu, fun h'' => ?_⟩
    obtain ⟨v, hv, -, hvframe⟩ := pushpop_completes huframe.initialised h''
    refine ⟨v, hv, ?_, ?_⟩
    · simp [hvframe.accepted, huframe.accepted, hframe.accepted]
    · simp [hvframe.delivered, huregs, hregs, encWord, enc]

/-! ### Every operation -/

theorem exec_completes (i : Instr) {s : State} (hi : s.initialised = true) : ∃ t, exec i s = .next t := by
  cases i
  case reset => exact ⟨_, clockCycle_of_initialised _ hi⟩
  case idle => exact ⟨_, clockCycle_of_initialised _ hi⟩
  case push h => exact ⟨_, clockCycle_of_initialised _ hi⟩
  case pop => exact ⟨_, clockCycle_of_initialised _ hi⟩
  case pushpop h => exact ⟨_, clockCycle_of_initialised _ hi⟩
  -- a lane or a lookup settles its net, whatever the state
  all_goals exact ⟨_, rfl⟩

/-- Settles O35: an operation is a clock cycle, which runs once a reset has happened, or settles a net; none of them touches the
script or forgets the reset. -/
theorem everyOperationCompletesAfterReset : Obligations.EveryOperationCompletesAfterReset := by
  intro i s hi
  obtain ⟨t, ht⟩ := exec_completes i hi
  refine ⟨t, ht, ?_⟩
  obtain ⟨p, -, rfl⟩ | ⟨j, rfl⟩ | ⟨x, rfl⟩ := exec_cases i s t ht
  · simp [hi]
  · exact ⟨hi, rfl⟩
  · exact ⟨hi, rfl⟩

end Sys2Proof.Machine
end

section
/-! SUPPORT. One clean cycle, whatever the host drives: its transfers, what depends on data, what an offer that is not taken
leaves, and the queue (42_stream_ops R162, R163, R169, R172 to R176). -/

namespace Sys2Proof.Machine

/-- Settles O33: every control vector is one clock cycle, and a clock cycle is the step function with its frame. -/
theorem cycleIsTheStepFunction : Obligations.CycleIsTheStepFunction :=
  fun _ _ => runPins_completes_of_run

/-- A cycle that may run ends with its edge. -/
theorem runPins_eq_edge {p : Ports} {s : State} (h : (s.initialised || p.rst) = true) :
    runPins p s = .next (s.drive p).edge := by
  rw [runPins_eq, clockCycle_eq_next]
  exact ⟨h, rfl⟩

/-! ### What an edge does at each transfer, and without it -/

section
variable {s : State}

theorem edge_of_inFire (h : inFire s = true) : s.edge.regs.s1Valid = true ∧ s.edge.regs.s1Idx = win s.ports.inData ∧
    s.edge.accepted = s.accepted ++ [s.ports.inData] := by
  simp [nextRegs, nextAccepted, rst_low_of_inFire h, h]

theorem edge_of_advances (h : advances s = true) :
    s.edge.regs.s2Valid = true ∧ s.edge.regs.s2Char = lutAll s.regs.s1Idx := by
  have hr : s.ports.rst = false := by
    simp only [advances, Bool.and_eq_true, Bool.not_eq_true'] at h
    exact h.1
  simp [nextRegs, hr, h]

variable (hr : s.ports.rst = false)
include hr

theorem edge_of_not_inFire (h : inFire s = false) :
    s.edge.regs.s1Idx = s.regs.s1Idx ∧ s.edge.accepted = s.accepted := by
  simp [nextRegs, nextAccepted, hr, h]

theorem edge_of_outFire (h : outFire s = true) : s.edge.delivered = s.delivered ++ [packChars s.regs.s2Char] := by
  simp [nextDelivered, hr, h, outData_of_outFire s h]

theorem edge_of_not_outFire (h : outFire s = false) : s.edge.delivered = s.delivered := by
  simp [nextDelivered, hr, h]

theorem edge_of_not_advances (h : advances s = false) : s.edge.regs.s2Char = s.regs.s2Char := by
  simp [nextRegs, hr, h]

end

/-- Where no input transfer happens, the edge with another word on in_data differs in the port alone (42_stream_ops R163). -/
theorem edge_of_other_inData {s : State} {p : Ports} (h : inFire (s.drive p) = false) (x : DataIn) :
    (s.drive { p with inData := x }).edge = { (s.drive p).edge with ports := { p with inData := x } } := by
  have hx : inFire (s.drive { p with inData := x }) = false := h
  have hregs : nextRegs (s.drive { p with inData := x }) = nextRegs (s.drive p) := by
    rw [nextRegs_eq, nextRegs_eq]
    exact stepRegs_eq_of_not_inFire h x p.inData
  have hacc : nextAccepted (s.drive { p with inData := x }) = nextAccepted (s.drive p) := by
    simp [nextAccepted, h, hx]
  simp only [State.edge, hregs, hacc]
  rfl

/-- Settles O34: each transfer has its own arm in the edge, and only the arm of the input transfer reads in_data. -/
theorem transfersHappenAsTheHandshakeSays : Obligations.TransfersHappenAsTheHandshakeSays := by
  intro p s hrun
  refine ⟨_, runPins_eq_edge hrun, fun hr => ⟨rfl, rfl, edge_of_inFire, edge_of_not_inFire hr, edge_of_outFire hr,
    edge_of_not_outFire hr, edge_of_advances, edge_of_not_advances hr⟩, no_transfer_of_rst (s.drive p), fun hf x => ?_⟩
  refine ⟨_, runPins_eq_edge hrun, ?_⟩
  rw [edge_of_other_inData hf x]
  exact ⟨rfl, rfl, rfl, rfl, rfl, rfl, rfl⟩

/-! ### Control and data -/

/-- The next valid bits are a function of the valid bits, rst, in_valid and out_ready (42_stream_ops R176). -/
theorem stepRegs_valid_congr {p q : Ports} {r r' : Regs} (h1 : r.s1Valid = r'.s1Valid) (h2 : r.s2Valid = r'.s2Valid)
    (hr : p.rst = q.rst) (hv : p.inValid = q.inValid) (ho : p.outReady = q.outReady) :
    (stepRegs p r).s1Valid = (stepRegs q r').s1Valid ∧ (stepRegs p r).s2Valid = (stepRegs q r').s2Valid := by
  simp only [stepRegs, h1, h2, hr, hv, ho]
  cases q.rst <;> exact ⟨rfl, rfl⟩

/-- Settles O37: the formulas of the two outputs and of the next valid bits name no data. -/
theorem controlIsDataOblivious : Obligations.ControlIsDataOblivious := by
  intro s u p q hs hu h1 h2 hr hv ho
  obtain ⟨t, ht, htregs, -⟩ := runPins_completes p hs
  obtain ⟨v, hv', hvregs, -⟩ := runPins_completes q hu
  refine ⟨by simp [inReady, h1, h2, hr, ho], by simp [outValid, h2, hr], t, v, ht, hv', ?_⟩
  rw [htregs, hvregs]
  exact stepRegs_valid_congr h1 h2 hr hv ho

/-! ### Offers that are not taken -/

/-- While S2 is full and nothing is taken from it, it keeps what it holds (42_stream_ops R173). -/
theorem stepRegs_s2_held {p : Ports} {r : Regs} (hr : p.rst = false) (ho : p.outReady = false) (h2 : r.s2Valid = true) :
    (stepRegs p r).s2Valid = true ∧ (stepRegs p r).s2Char = r.s2Char := by
  simp [stepRegs, hr, ho, h2]

/-- Settles O38: S2 keeps its word through the cycle, and the next cycle offers it again. -/
theorem offeredResultIsHeldUntilTaken : Obligations.OfferedResultIsHeldUntilTaken := by
  intro s p hi hvalid ho
  obtain ⟨hr, h2⟩ : p.rst = false ∧ s.regs.s2Valid = true := (outValid_iff _).1 hvalid
  obtain ⟨t, ht, hregs, -⟩ := runPins_completes p hi
  obtain ⟨ht2, htchar⟩ := stepRegs_s2_held hr ho h2
  refine ⟨t, ht, fun q hq => ?_⟩
  have hnext : outValid (t.drive q) = true := by simp [outValid_iff, hq, hregs, ht2]
  refine ⟨hnext, ?_⟩
  rw [outData_of_outValid hnext, outData_of_outValid hvalid, State.drive_regs, hregs, htchar]
  rfl

/-- Settles O39: in_ready = 0 means that both stages are full and nothing is taken, so the cycle keeps every register, and the
next cycle accepts by its own handshake. -/
theorem stalledOfferIsNotRemembered : Obligations.StalledOfferIsNotRemembered := by
  intro s p hi hr hv hready
  obtain ⟨hfull, ho⟩ := (inReady_drive_eq_false_iff s hr).1 hready
  obtain ⟨h1, h2⟩ := (occupancy_eq_two_iff s).1 hfull
  obtain ⟨t, ht, hregs, hframe⟩ := runPins_completes p hi
  have hkept : t.regs = s.regs := hregs.trans (stepRegs_of_full hr ho h1 h2)
  have hacc : t.accepted = s.accepted := by simp [hframe.accepted, hr, inFire, hready]
  refine ⟨t, ht, by rw [hkept], by rw [hkept], hacc, fun q hq => ?_⟩
  refine ⟨_, runPins_eq_edge (by simp [hframe.initialised]), ?_⟩
  have hfire : inFire (t.drive q) = (q.inValid && inReady (t.drive q)) := rfl
  rw [← hfire, ← hacc, ← hkept]
  simp [nextAccepted, nextRegs, hq]

/-! ### The queue -/

theorem length_queue_le_capacity (s : State) : (queue s).length ≤ Config.capacity :=
  occupancy_eq_length_queue s ▸ occupancy_le_capacity s

/-- Settles O42: the queue after the edge is the queue without the word taken and with the word accepted, and after a reset both
stages are empty. -/
theorem cycleMovesTheQueueAsAFifo : Obligations.CycleMovesTheQueueAsAFifo := by
  intro s p hi
  refine ⟨_, runPins_eq_edge (by simp [hi]), fun hr => queue_edge hr, fun hf => ?_, fun hr => ?_,
    length_queue_le_capacity s, length_queue_le_capacity _⟩
  · exact congrArg List.head? (queue_eq_cons_of_outFire hf)
  · obtain ⟨h1, h2⟩ := nextRegs_of_rst (s := s.drive p) hr
    exact queue_of_empty h1 h2

/-- In FIFO order the k-th delivered word is ENC of the k-th accepted word (20_memory R58). -/
theorem delivered_get_of_inFifoOrder {s : State} (h : InFifoOrder s) {k : Nat} (hk : k < s.delivered.length) :
    s.delivered[k]? = s.accepted[k]?.map encWord := by
  rw [← List.getElem?_map, ← h, List.getElem?_append_left hk]

/-- Settles O49: a delivered word is ENC of the accepted word at its place, and of nothing else. -/
theorem equalWordsGiveEqualResults : Obligations.EqualWordsGiveEqualResults := by
  intro s u k m hs hu hsi hui hk hm heq
  rw [delivered_get_of_inFifoOrder ((fifoInv_iff s).1 hs hsi) hk, delivered_get_of_inFifoOrder ((fifoInv_iff u).1 hu hui) hm,
    heq]

end Sys2Proof.Machine
end

section
/-! SUPPORT. The stop before the first reset (60_exceptions R201(b), 70_reset_and_hazards R232) and the
moves of the host that are no cycle, a stopped clock and a loss of power (60_exceptions R217). -/

namespace Sys2Proof.Machine

/-- Before the first reset, a cycle without rst is refused (60_exceptions R201(b)). -/
theorem clockCycle_refused {s : State} (hi : s.initialised = false) (hr : s.ports.rst = false) :
    clockCycle s = .refused .runWithoutReset :=
  if_neg (by simp [hi, hr])

/-- Settles O59: the four operations other than RESET are cycles with rst = 0, RESET is one with rst = 1, and a loss of power
forgets the reset. -/
theorem noCycleButResetRunsBeforeTheFirstReset : Obligations.NoCycleButResetRunsBeforeTheFirstReset := by
  refine ⟨fun s h hi => ?_, fun s rest hs => ⟨_, step_of_script hs, rfl, rfl⟩, rfl⟩
  have refused (p : Ports) (hr : p.rst = false) : clockCycle (s.drive p) = .refused .runWithoutReset :=
    clockCycle_refused hi hr
  obtain ⟨t, ht, hregs, hframe⟩ := reset_completes s
  exact ⟨refused _ rfl, refused _ rfl, refused _ rfl, refused _ rfl, t, ht, hframe.initialised,
    (drained_iff t).2 (by simp [hregs])⟩

/-- With no move left in the script, a step changes nothing. -/
theorem step_of_script_nil {s : State} (hs : s.script = []) : step s = .next s := by
  simp only [step, runNext, hs]

/-- Settles O60: a stopped clock is a move that only leaves the script, and an empty script has no move to make. -/
theorem stoppedClockHoldsTheState : Obligations.StoppedClockHoldsTheState :=
  ⟨fun _ _ hs => step_of_script hs, fun _ hs => step_of_script_nil hs⟩

end Sys2Proof.Machine
end

section
/-! SUPPORT. What a reset, a stall and a free S2 mean for the words that follow: the first cycle after a reset, the latency and
the throughput (70_reset_and_hazards R234, R245, R246). -/

namespace Sys2Proof.Machine

/-! ### The first cycle after a reset -/

/-- Settles O40: a reset leaves both stages empty, so the next cycle with rst = 0 has room for a word and none to offer. -/
theorem firstCycleAfterResetAccepts : Obligations.FirstCycleAfterResetAccepts := by
  intro s
  obtain ⟨t, ht, hregs, hframe⟩ := reset_completes s
  have h1 : t.regs.s1Valid = false := by rw [hregs]
  have h2 : t.regs.s2Valid = false := by rw [hregs]
  have hacc : t.accepted = [] := hframe.accepted
  refine ⟨t, ht, (drained_iff t).2 ⟨h1, h2⟩, fun p hp => ⟨(inReady_iff _).2 ⟨hp, .inl h1⟩, ?_⟩, fun h => ?_, fun h => ?_⟩
  · simp [outValid, h2]
  · obtain ⟨u, hu, huregs, huframe⟩ := push_of_room hframe.initialised h (by simp [h1])
    exact ⟨u, hu, by simp [huframe.accepted, hacc], by rw [huregs], by rw [huregs]⟩
  · obtain ⟨u, hu, huregs, huframe⟩ := pushpop_completes hframe.initialised h
    exact ⟨u, hu, by simp [huframe.accepted, hacc], by rw [huregs], by rw [huregs]⟩

/-! ### Latency -/

theorem runPinsAll_cons_of_next {p : Ports} {s t : State} (h : runPins p s = .next t) (ps : List Ports) :
    runPinsAll (p :: ps) s = runPinsAll ps t := by
  simp only [runPinsAll, h]

/-- With a word in S1, any number of cycles in which S2 is full and nothing is taken from it keeps every register
(70_reset_and_hazards R245). With no such cycle, S2 may be empty. -/
theorem runPinsAll_of_stalled (stalls : List Ports) (hstall : ∀ x ∈ stalls, x.rst = false ∧ x.outReady = false) :
    ∀ s : State, s.initialised = true → s.regs.s1Valid = true → (stalls ≠ [] → s.regs.s2Valid = true) →
      ∃ u, runPinsAll stalls s = .next u ∧ u.regs = s.regs ∧ u.initialised = true ∧ u.cycle = s.cycle + stalls.length := by
  induction stalls with
  | nil => exact fun s hi _ _ => ⟨s, rfl, rfl, hi, rfl⟩
  | cons p ps ih =>
    intro s hi h1 hfull
    obtain ⟨⟨hr, ho⟩, hps⟩ := List.forall_mem_cons.1 hstall
    have h2 : s.regs.s2Valid = true := hfull (List.cons_ne_nil p ps)
    obtain ⟨t, ht, hregs, hframe⟩ := runPins_completes p hi
    have hkept : t.regs = s.regs := hregs.trans (stepRegs_of_full hr ho h1 h2)
    obtain ⟨u, hu, hur, hui, huc⟩ := ih hps t hframe.initialised (by rw [hkept, h1]) (fun _ => by rw [hkept, h2])
    refine ⟨u, (runPinsAll_cons_of_next ht ps).trans hu, hur.trans hkept, hui, ?_⟩
    rw [huc, hframe.cycle, List.length_cons]
    omega

/-- A full S1 advances in every cycle with rst = 0 in which S2 is empty or taken (42_stream_ops R162). -/
theorem advances_of_s2_free {s : State} (hr : s.ports.rst = false) (h1 : s.regs.s1Valid = true)
    (hfree : s.regs.s2Valid = false ∨ s.ports.outReady = true) : advances s = true := by
  simpa [advances, hr, h1] using hfree

/-- A full S2 is offered on out_data in every cycle with rst = 0 (10_state R38, R39). -/
theorem offered_of_s2_valid {s : State} (hr : s.ports.rst = false) (h2 : s.regs.s2Valid = true) :
    outValid s = true ∧ outData s = packChars s.regs.s2Char :=
  have hvalid : outValid s = true := (outValid_iff s).2 ⟨hr, h2⟩
  ⟨hvalid, outData_of_outValid hvalid⟩

/-- Settles O47: the accepting edge loads S1, stalled cycles keep it there, and the first cycle with S2 free loads S2, which is
offered from then on. -/
theorem latencyIsTwoCyclesWithoutBackPressure : Obligations.LatencyIsTwoCyclesWithoutBackPressure := by
  intro s p hi hfire
  obtain ⟨h1, hidx, -⟩ := edge_of_inFire hfire
  refine ⟨_, runPins_eq_edge (by simp [hi]), rfl, h1, hidx, fun stalls q hstall hfull hq => ?_⟩
  obtain ⟨u, hu, hregs, hui, huc⟩ := runPinsAll_of_stalled stalls hstall _ (by simp [hi]) h1 hfull
  refine ⟨u, hu, hregs, huc, fun hfree => ?_⟩
  have hadv : advances (u.drive q) = true :=
    advances_of_s2_free hq (by rw [State.drive_regs, hregs, h1]) (by rwa [State.drive_regs, hregs])
  obtain ⟨h2, hchar⟩ := edge_of_advances hadv
  have hword : (u.drive q).edge.regs.s2Char = enc p.inData := by
    rw [hchar, State.drive_regs, hregs, hidx]
    rfl
  refine ⟨_, runPins_eq_edge (by simp [hui]), ?_, h2, hword, fun r hr => ?_⟩
  · simp only [State.edge_cycle, State.drive_cycle, huc, Config.latency]
    omega
  · obtain ⟨hvalid, hdata⟩ := offered_of_s2_valid (s := (u.drive q).edge.drive r) hr h2
    exact ⟨hvalid, hdata.trans (congrArg packChars hword)⟩

/-! ### Throughput -/

/-- Settles O48: with the host taking, every cycle has room for its word and moves the words before it on by one stage, so the
third cycle takes what the first accepted. -/
theorem throughputIsOneWordPerCycle : Obligations.ThroughputIsOneWordPerCycle := by
  intro s a b c hi
  obtain ⟨t, ht, htregs, htframe⟩ := pushpop_completes hi a
  obtain ⟨u, hu, huregs, huframe⟩ := pushpop_completes htframe.initialised b
  obtain ⟨v, hv, hvregs, hvframe⟩ := pushpop_completes huframe.initialised c
  refine ⟨t, u, v, ht, hu, hv, fun x h _ => (inReady_iff _).2 ⟨rfl, .inr (.inr rfl)⟩, ?_, ?_, ?_⟩
  · simp [hvframe.accepted, huframe.accepted, htframe.accepted]
  · simp [hvframe.observation, huframe.cycle, htframe.cycle, huregs, htregs, encWord, enc]
  · simp [occupancy_eq_two_iff, hvregs, huregs]

end Sys2Proof.Machine
end
